-- ==== Sys2Proof/Word.lean ====
section
/-! DEFINITION. The words of the ZC30: bytes, addresses, timers, the named states and codes of the manual, and the
contents of the frames of the station line (spec/12_frame_and_image_layouts.md, R187 and R188). -/

namespace Sys2Proof

/-- One byte of a frame, of a command's operands or of the configuration image (R186). -/
abbrev Byte := BitVec 8

/-- A station address on the line, five bits (R187): 1 to 30 are stations, 31 is broadcast, 0 is none. -/
abbrev Addr := BitVec 5

/-- A timer: the time left in ms, or `none` while it is stopped (00_scope.md, Time). -/
abbrev Timer := Option Nat

/-- One of the four actuation channels AC0-AC3. -/
abbrev Chan := Fin 4

/-- One of the two heat loops HL0, HL1. -/
abbrev LoopIx := Fin 2

/-- A member of the eight monitor points, cells or watch slots. -/
abbrev Ix8 := Fin 8

/-- The broadcast destination of commands (00_scope.md, Addresses and broadcast). -/
def broadcast : Byte := 31#8

/-- The largest conveyor position, 8,388,607 um, at which leads and accumulators saturate (R48). -/
def maxPosition : Nat := 8388607

/-- Station states, in the order of their codes (R188). -/
inductive StationState where
  | loading
  | unconfigured
  | joining
  | operating
  | conflict
deriving DecidableEq, Repr

/-- Line states of the line interface (R6). -/
inductive LineState where
  | active
  | mute
deriving DecidableEq, Repr

/-- Process states (R174). -/
inductive ProcessState where
  | run
  | stopped
deriving DecidableEq, Repr

/-- Fault codes of the configuration loader, in the order of their codes (R188). -/
inductive FaultCode where
  | noFault
  | addressBad
  | loadFailed
  | imageBad
  | imageInvalid
deriving DecidableEq, Repr

/-- Result codes of a REPLY, in order of increasing severity (R16). -/
inductive ResultCode where
  | done
  | clamped
  | refusedState
  | notHeld
  | owned
  | stopped
  | badOperand
deriving DecidableEq, Repr

/-- The ten frame kinds, in rank order (R4, R187). -/
inductive Kind where
  | stop
  | alarm
  | sight
  | entry
  | speed
  | command
  | reply
  | demand
  | state
  | join
deriving DecidableEq, Repr

/-- The eight states of a channel, in the order of their codes (R60, R189). -/
inductive ChanState where
  | idle
  | armed
  | delay
  | on
  | off
  | halting
  | held
  | blocked
deriving DecidableEq, Repr

/-- The terminate causes of a channel, in the order of their codes (R60, R189). -/
inductive Cause where
  | noCause
  | count
  | single
  | window
  | inputEnd
  | permit
  | halt
  | stop
deriving DecidableEq, Repr

/-- What created a board record (R20), in the order of its codes in TRANSIT-READ MARKS (R189). -/
inductive Origin where
  | entry
  | peerSight
  | ownSight
deriving DecidableEq, Repr

/-- The clamp record of a heat loop (R93). -/
inductive Clamp where
  | unclamped
  | low
  | high
deriving DecidableEq, Repr

/-- States of the solder feeder as the level unit holds them (R126 to R128). -/
inductive Feeder where
  | rest
  | feeding
  | waiting
deriving DecidableEq, Repr

/-- Alarm states of a monitor point (R150). -/
inductive PointState where
  | normal
  | qualifying
  | raised
  | raisedAcked
  | clearedUnacked
deriving DecidableEq, Repr

/-- States of the alarm line (R153, R154). -/
inductive AlarmLine where
  | deasserted
  | asserted
  | gap
deriving DecidableEq, Repr

/-- States of the line-stop unit (R170). -/
inductive StopUnit where
  | waiting
  | timing
  | triggered
deriving DecidableEq, Repr

/-- States of the stop output (R172). -/
inductive StopOutput where
  | off
  | pulse
  | held
deriving DecidableEq, Repr

/-- The two held causes of a reset (R176). -/
inductive HeldCause where
  | power
  | pin
deriving DecidableEq, Repr

/-- Why a read of the image failed (R179). -/
inductive ReadFailure where
  | notAcknowledged
  | busNotFree
  | timeout
deriving DecidableEq, Repr

/-! ### Contents of frames (R188) -/

/-- ALARM: the point, whether the new state is RAISED (else NORMAL), whether the severity is TRIP. -/
structure AlarmContent where
  point : Ix8
  raised : Bool
  trip : Bool
deriving DecidableEq, Repr

/-- SIGHT: the id, the edge kind (TRAIL or LEAD), the position in um and the measured length M. -/
structure SightContent where
  id : Byte
  trail : Bool
  position : BitVec 23
  measured : BitVec 16
deriving DecidableEq, Repr

/-- ENTRY: the id, the length in mm and the byte of the profile tag. -/
structure EntryContent where
  id : Byte
  length : BitVec 16
  tag : Byte
deriving DecidableEq, Repr

/-- DEMAND: the station address, the loop, the class and the demand, as wide as the frame carries them. -/
structure DemandContent where
  station : Byte
  loop : Byte
  cls : Byte
  demand : BitVec 16
deriving DecidableEq, Repr

/-- STATE: the content of R156, laid out in R188. -/
structure StateContent where
  raised : BitVec 8
  unacked : BitVec 8
  busy : BitVec 4
  running : BitVec 4
  permits : BitVec 16
  stopped : Bool
  limited0 : Bool
  limited1 : Bool
  fault0 : Bool
  fault1 : Bool
  speedStale : Bool
  safeMode : Bool
  txqLost : Bool
  tableFull : Bool
  transitOverflow : Bool
deriving DecidableEq, Repr

/-- JOIN: the content of R182, laid out in R188. -/
structure JoinContent where
  roles : BitVec 7
  sensorPosition : BitVec 24
  expectedSize : Byte
  fault : Byte
  offending : Byte
deriving DecidableEq, Repr

/-- REPLY: the station that sent the command, the command code answered, the result and the data. -/
structure ReplyContent where
  panel : Addr
  code : Byte
  result : ResultCode
  data : List Byte
deriving DecidableEq, Repr

/-- A frame that this station queues: its kind and payload. COMMAND is missing, since the operator panel alone
sends it (R4). The source address is the station's own. -/
inductive Frame where
  | stop (causes : BitVec 3)
  | alarm (c : AlarmContent)
  | sight (c : SightContent)
  | entry (c : EntryContent)
  | speed (value : BitVec 16)
  | reply (c : ReplyContent)
  | demand (c : DemandContent)
  | state (c : StateContent)
  | join (c : JoinContent)
deriving DecidableEq, Repr

/-- How a frame is taken (R13): by self-reception, its content being that of the attempt in flight, or as heard on the
line from a source that this station is not sending as. -/
inductive Rx (α : Type) where
  | own
  | heard (source : Addr) (content : α)
deriving DecidableEq, Repr

/-- What every COMMAND frame carries beside its code and operands: the address of the station that sent it, and its
destination byte (R188). -/
structure CmdHeader where
  source : Addr
  dest : Byte
deriving DecidableEq, Repr

/-- Kind code, source address and payload length of a frame that is taken and not delivered (R14). -/
structure RawFrame where
  kind : BitVec 4
  length : Nat
deriving DecidableEq, Repr

/-! ### Codes -/

/-- Kind code of a frame kind (R187). -/
def Kind.code : Kind → Nat
  | .stop => 0
  | .alarm => 1
  | .sight => 2
  | .entry => 3
  | .speed => 4
  | .command => 5
  | .reply => 6
  | .demand => 7
  | .state => 8
  | .join => 9

/-- Kind of a queued frame. -/
def Frame.kind : Frame → Kind
  | .stop _ => .stop
  | .alarm _ => .alarm
  | .sight _ => .sight
  | .entry _ => .entry
  | .speed _ => .speed
  | .reply _ => .reply
  | .demand _ => .demand
  | .state _ => .state
  | .join _ => .join

/-- Rank of a queued frame: its kind code; a lower one outranks a higher one (R4). -/
def Frame.rank (f : Frame) : Nat := f.kind.code

/-- Code of a station state in a REPLY to RESTART (R188). -/
def StationState.code : StationState → Nat
  | .loading => 0
  | .unconfigured => 1
  | .joining => 2
  | .operating => 3
  | .conflict => 4

/-- Code of a fault (R188). -/
def FaultCode.code : FaultCode → Nat
  | .noFault => 0
  | .addressBad => 1
  | .loadFailed => 2
  | .imageBad => 3
  | .imageInvalid => 4

/-- Code and severity of a result (R16, R188). -/
def ResultCode.code : ResultCode → Nat
  | .done => 1
  | .clamped => 2
  | .refusedState => 3
  | .notHeld => 4
  | .owned => 5
  | .stopped => 6
  | .badOperand => 7

/-- Code of a channel state (R189). -/
def ChanState.code : ChanState → Nat
  | .idle => 0
  | .armed => 1
  | .delay => 2
  | .on => 3
  | .off => 4
  | .halting => 5
  | .held => 6
  | .blocked => 7

/-- Code of a terminate cause (R189). -/
def Cause.code : Cause → Nat
  | .noCause => 0
  | .count => 1
  | .single => 2
  | .window => 3
  | .inputEnd => 4
  | .permit => 5
  | .halt => 6
  | .stop => 7

/-- Code of an origin in TRANSIT-READ MARKS (R189). -/
def Origin.code : Origin → Nat
  | .entry => 0
  | .peerSight => 1
  | .ownSight => 2

end Sys2Proof
end

