-- ==== Sys2Proof/Config.lean ====
section
/-! DEFINITION. What is fixed for the machine: the configuration image's items as the blocks use them
(spec/12_frame_and_image_layouts.md, R190), the names of the signal catalogue (R145), and the free values that the
manual leaves open. -/

namespace Sys2Proof

/-! ### The signal catalogue (R145) -/

/-- The five flags of a heat loop (R94). -/
inductive LoopFlag where
  | n
  | z
  | c
  | v
  | l
deriving DecidableEq, Repr

/-- The catalogue signals of R145, by name. -/
inductive Sig where
  | constant (value : Bool)
  | pointRaised (i : Ix8)
  | cell (i : Ix8)
  | permit (i : Fin 16)
  | gin (i : Fin 2)
  | chreq (k : Chan)
  | chend (k : Chan)
  | busy (k : Chan)
  | running (k : Chan)
  | windowOccupied (k : Chan)
  | flag (f : LoopFlag) (i : LoopIx)
  | tcOpen (i : LoopIx)
  | speedStale
  | speedConflict
  | boardMissed
  | unknownBoard
  | transitOverflow
  | longBoard
  | mainsLost
  | levelInvalid
  | levelSettling
  | feedRequest
  | feedTimeout
  | airflowLow
  | filterLoaded
  | tableFull
  | safeMode
  | lineMute
  | txqLost
  | watchRaised (i : Ix8)
  | watchSilent (i : Ix8)
deriving DecidableEq, Repr

/-- A selection of a catalogue signal, inverted or not (R145, R190). -/
structure Selection where
  sig : Sig
  inverted : Bool
deriving DecidableEq, Repr

/-- The analog values that a monitor point may watch (R146). -/
inductive Analog where
  | gain0
  | gain1
  | pv0
  | pv1
  | level
  | airflow
  | fanOutput
deriving DecidableEq, Repr

/-! ### Items of the image's blocks -/

/-- A general output's selection: no cell, or a cell, with inversion (R169). -/
structure GoutCfg where
  cell : Option Ix8
  inverted : Bool
deriving DecidableEq, Repr

/-- Items of the station block (chapters 2, 3, 6, 9 and 10). -/
structure StationCfg where
  entrySource : Bool
  speedSource : Bool
  sensor : Bool
  encoderScale : Nat
  sensorPosition : Nat
  captureWindow : Nat
  forgetPosition : Nat
  budget : Nat
  safeGrant : Nat
  expected : BitVec 32
  gout0 : GoutCfg
  gout1 : GoutCfg
deriving DecidableEq, Repr

/-- Synchronization modes of a channel (R57). -/
inductive ChanMode where
  | off
  | free
  | board
  | input
deriving DecidableEq, Repr

/-- Items of a channel block (R57); bases are in ms, follow actions are true for REARM. -/
structure ChanCfg where
  mode : ChanMode
  delay : Nat
  onTime : Nat
  period : Nat
  onBase : Nat
  periodBase : Nat
  countLimit : Nat
  rearmCount : Bool
  rearmSingle : Bool
  rearmWindow : Bool
  rearmInputEnd : Bool
  completePulse : Bool
  inverted : Bool
  levelOwned : Bool
  permit : Selection
  nozzle : Nat
  leadMargin : Nat
  trailMargin : Nat
deriving DecidableEq, Repr

/-- Items of a loop block (chapter 5); `cls` 0 is must-hold, 1 is normal. -/
structure LoopCfg where
  inUse : Bool
  ganged : Bool
  autoEnable : Bool
  cls : Nat
  spMin : Nat
  spMax : Nat
  defaultSp : Nat
  kp : Nat
  ki : Nat
  fBoard : Nat
  deadband : Nat
  rated : Nat
  tcOffset : Int
  permit : Selection
  zoneStart : Nat
  zoneEnd : Nat
  lookahead : Nat
deriving DecidableEq, Repr

/-- Items of the level block (chapter 7). -/
structure LevelCfg where
  inUse : Bool
  wave : Option Chan
  waveOffset : Nat
  settle : Nat
  feedOn : Int
  feedOff : Int
  maxFeed : Nat
deriving DecidableEq, Repr

/-- One fume span (R56). -/
structure SpanCfg where
  used : Bool
  first : Nat
  last : Nat
deriving DecidableEq, Repr

/-- Items of the extraction block (chapter 8); a watched station of 0 is NONE. -/
structure ExtractionCfg where
  inUse : Bool
  base : Nat
  perBoard : Nat
  boost : Nat
  watchedStation : Nat
  watchedChan : Chan
  rampStep : Nat
  activeThreshold : Nat
  minAirflow : Nat
  clogThreshold : Nat
  span1 : SpanCfg
  span2 : SpanCfg
deriving DecidableEq, Repr

/-- Items of a monitor point's block (R147). -/
structure PointCfg where
  inUse : Bool
  isSignal : Bool
  below : Bool
  onSource : Bool
  trip : Bool
  analog : Analog
  signal : Selection
  threshold : Int
  hysteresis : Nat
  qualification : Nat
deriving DecidableEq, Repr

/-- Functions of an interlock cell (R166, R167). -/
inductive CellFn where
  | and
  | or
  | xor
  | latch
deriving DecidableEq, Repr

/-- Items of a cell's block (R165). -/
structure CellCfg where
  inUse : Bool
  fn : CellFn
  inverted : Bool
  a : Selection
  b : Selection
  c : Selection
deriving DecidableEq, Repr

/-- A selector of the line-stop unit (R170). -/
structure StopSelector where
  enabled : Bool
  signal : Selection
deriving DecidableEq, Repr

/-- Items of the stop unit's block (R170); times in units of 10 ms. -/
structure StopCfg where
  s0 : StopSelector
  s1 : StopSelector
  s2 : StopSelector
  triggerTime : Nat
  stopWidth : Nat
deriving DecidableEq, Repr

/-- Items of a peer watch slot's block (R160). -/
structure SlotCfg where
  inUse : Bool
  station : Nat
  point : Ix8
deriving DecidableEq, Repr

/-- The configuration image as the blocks hold it once it is accepted (R180, R190). -/
structure Image where
  station : StationCfg
  chans : Vector ChanCfg 4
  loops : Vector LoopCfg 2
  level : LevelCfg
  extraction : ExtractionCfg
  points : Vector PointCfg 8
  cells : Vector CellCfg 8
  stop : StopCfg
  slots : Vector SlotCfg 8
deriving DecidableEq, Repr

/-- The selection of FALSE, not inverted (code 0 of R190). -/
def Selection.never : Selection := ⟨.constant false, false⟩

/-- A channel block of zeros. -/
def ChanCfg.blank : ChanCfg :=
  { mode := .off, delay := 0, onTime := 0, period := 0, onBase := 1, periodBase := 1, countLimit := 0,
    rearmCount := false, rearmSingle := false, rearmWindow := false, rearmInputEnd := false,
    completePulse := false, inverted := false, levelOwned := false, permit := .never,
    nozzle := 0, leadMargin := 0, trailMargin := 0 }

/-- A loop block of zeros. -/
def LoopCfg.blank : LoopCfg :=
  { inUse := false, ganged := false, autoEnable := false, cls := 0, spMin := 0, spMax := 0, defaultSp := 0,
    kp := 0, ki := 0, fBoard := 0, deadband := 0, rated := 0, tcOffset := 0, permit := .never,
    zoneStart := 0, zoneEnd := 0, lookahead := 0 }

/-- A monitor point's block of zeros. -/
def PointCfg.blank : PointCfg :=
  { inUse := false, isSignal := false, below := false, onSource := false, trip := false, analog := .gain0,
    signal := .never, threshold := 0, hysteresis := 0, qualification := 3 }

/-- A cell's block of zeros. -/
def CellCfg.blank : CellCfg :=
  { inUse := false, fn := .and, inverted := false, a := .never, b := .never, c := .never }

/-- The items before an image has been accepted: nothing in use. DESIGN CHOICE (log 10): the manual gives the items no
value before the acceptance, and no rule reads one then; unsafe only for a claim that reads an item before JOINING. -/
def Image.blank : Image :=
  { station :=
      { entrySource := false, speedSource := false, sensor := false, encoderScale := 0, sensorPosition := 0,
        captureWindow := 0, forgetPosition := 0, budget := 0, safeGrant := 0, expected := 0,
        gout0 := ⟨none, false⟩, gout1 := ⟨none, false⟩ }
    chans := Vector.replicate 4 ChanCfg.blank
    loops := Vector.replicate 2 LoopCfg.blank
    level := { inUse := false, wave := none, waveOffset := 0, settle := 0, feedOn := 0, feedOff := 0, maxFeed := 0 }
    extraction :=
      { inUse := false, base := 0, perBoard := 0, boost := 0, watchedStation := 0, watchedChan := 0, rampStep := 0,
        activeThreshold := 0, minAirflow := 0, clogThreshold := 0, span1 := ⟨false, 0, 0⟩, span2 := ⟨false, 0, 0⟩ }
    points := Vector.replicate 8 PointCfg.blank
    cells := Vector.replicate 8 CellCfg.blank
    stop := { s0 := ⟨false, .never⟩, s1 := ⟨false, .never⟩, s2 := ⟨false, .never⟩, triggerTime := 0, stopWidth := 0 }
    slots := Vector.replicate 8 ⟨false, 0, 0⟩ }

/-! ### Free values

Constants without a body: no proof can see what they are. -/

namespace Config

/-- Which of the expiries due at one moment is taken first (R77 and its like: "may be taken in either order").
DESIGN CHOICE (log 5), safe: every order is allowed. -/
opaque dueOrder : Nat → Nat

/-- A thermocouple reading of a conversion that the model's clock delivers. DESIGN CHOICE (log 6), safe. -/
opaque freeTc : Nat → Fin 5001

/-- A level reading of a conversion that the model's clock delivers. DESIGN CHOICE (log 6), safe. -/
opaque freeLevel : Nat → BitVec 10

/-- An airflow reading of a conversion that the model's clock delivers. DESIGN CHOICE (log 6), safe. -/
opaque freeAirflow : Nat → Nat

/-- A GAIN reading of a conversion that the model's clock delivers. DESIGN CHOICE (log 6), safe. -/
opaque freeGain : Nat → Fin 1001

/-- The straps as they stand where an accepted RESTART begins LOADING. DESIGN CHOICE (log 7), safe: no command tells them. -/
opaque freeStraps : Nat → BitVec 5

/-- Whether the serial bus is free at a ms in which a read of the image waits for it. DESIGN CHOICE (log 33), safe: no command
tells it. -/
opaque busFree : Nat → Bool

/-- The command code that a BAD-OPERAND REPLY answers where the COMMAND's payload is one byte long and holds no code.
DESIGN CHOICE (log 14), safe: the manual gives no value. -/
opaque missingCode : Byte

/-- The profile tag that a record takes from an ENTRY whose tag byte is above 7. DESIGN CHOICE (log 15), safe: the
manual gives a tag the range 0-7 and no rule for a byte above it. -/
opaque wideTag : Byte → BitVec 3

end Config

end Sys2Proof
end

