-- ==== Sys2Proof/Machine/Wire.lean ====
section
/-! DEFINITION. The frame on the wire (spec/01_the_station_line.md, R1 and R2) and the payload of each kind
(spec/12_frame_and_image_layouts.md, R186 to R188). A level is a Bool: `false` is dominant (0), `true` recessive (1). -/

namespace Sys2Proof.Machine

/-- The bits of a field, most significant first (R1, R186). -/
def bitsOf {w : Nat} (v : BitVec w) : List Bool := (List.range w).reverse.map v.getLsbD

/-- The number that bits spell, most significant first. -/
def numberOf (bits : List Bool) : Nat := bits.foldl (fun n b => 2 * n + b.toNat) 0

/-- The bits of bytes, in the order sent. -/
def bitsOfBytes (bytes : List Byte) : List Bool := bytes.flatMap bitsOf

/-- The two bytes of a 16-bit field, most significant first (R186). -/
def bytes16 (v : BitVec 16) : List Byte := [v.extractLsb' 8 8, v.extractLsb' 0 8]

/-- The three bytes of a 24-bit field, most significant first (R186). -/
def bytes24 (v : BitVec 24) : List Byte := [v.extractLsb' 16 8, v.extractLsb' 8 8, v.extractLsb' 0 8]

/-- A bit field of single flags, the first at bit 0 (R186). -/
def flagByte (flags : List Bool) : Byte := BitVec.ofNat 8 (numberOf flags.reverse)

/-- The payload of a frame (R188). -/
def payload : Frame → List Byte
  | .stop causes => [causes.setWidth 8]
  | .alarm c => [BitVec.ofNat 8 (c.point.val + 8 * c.raised.toNat + 16 * c.trip.toNat)]
  | .sight c => c.id :: bytes24 (BitVec.ofBool c.trail ++ c.position) ++ bytes16 c.measured
  | .entry c => c.id :: bytes16 c.length ++ [c.tag]
  | .speed v => bytes16 v
  | .reply c => BitVec.ofNat 8 (c.panel.toNat + 32 * c.result.code) :: c.code :: c.data
  | .demand c => c.station :: c.loop :: c.cls :: bytes16 c.demand
  | .state c =>
    [c.raised, c.unacked, c.running ++ c.busy] ++ bytes16 c.permits ++
      [flagByte [c.stopped, c.limited0, c.limited1, c.fault0, c.fault1],
       flagByte [c.speedStale, c.safeMode, c.txqLost, c.tableFull, c.transitOverflow]]
  | .join c => c.roles.setWidth 8 :: bytes24 c.sensorPosition ++ [c.expectedSize, c.fault, c.offending]

/-- One step of the CRC-16 with generator x^16 + x^12 + x^5 + 1 (R2, R180). -/
def crcStep (r : BitVec 16) (b : Bool) : BitVec 16 :=
  if r.msb ^^ b then (r <<< 1) ^^^ 0x1021#16 else r <<< 1

/-- The CRC-16 over bits: it starts at all ones and is not inverted (R2, R180). -/
def crc16 (bits : List Bool) : BitVec 16 := bits.foldl crcStep 0xffff#16

/-- Insert the run-limit bits: after every fifth consecutive bit of one level, one bit of the opposite level (R1). `last`
and `run` are the level sent last and how many of it stand in a row, an inserted bit counted like any other. No bit is
inserted after the last bit of the check. DEDUCED (log 13), safe: R2's test of six equal bits fixes the counting of inserted bits,
and sender and receiver agree. -/
def limitRuns (last : Bool) (run : Nat) : List Bool → List Bool
  | [] => []
  | b :: bs =>
    let run' := if b = last then run + 1 else 1
    if run' = 5 ∧ bs ≠ [] then b :: (!b) :: limitRuns (!b) 1 bs else b :: limitRuns b run' bs

/-- Remove the run-limit bits; `none` where a run of six equal bits occurs (R2). The runs are counted as `limitRuns` counts them
(log 13). -/
def removeRuns (last : Bool) (run : Nat) : List Bool → Option (List Bool)
  | [] => some []
  | b :: bs =>
    if run = 5 then
      if b = last then none else removeRuns b 1 bs
    else
      (removeRuns b (if b = last then run + 1 else 1) bs).map (b :: ·)

/-- Arbitration field, length and payload: what the check covers (R1, R187). -/
def checkedBits (kind : Nat) (source : Addr) (bytes : List Byte) : List Bool :=
  bitsOf (BitVec.ofNat 4 kind) ++ bitsOf source ++ bitsOf (BitVec.ofNat 4 bytes.length) ++ bitsOfBytes bytes

/-- A frame from its start bit through its check, without run-limit bits (R1). -/
def frameBits (kind : Nat) (source : Addr) (bytes : List Byte) : List Bool :=
  let body := checkedBits kind source bytes
  false :: body ++ bitsOf (crc16 body)

/-- The levels that a station sends for a frame, from the start bit through the check, with run-limit bits (R1). The start bit
counts as the first bit of the first run. DEDUCED (log 13), safe. -/
def sentLevels (kind : Nat) (source : Addr) (bytes : List Byte) : List Bool :=
  limitRuns true 0 (frameBits kind source bytes)

/-- The level that a station sends in the acknowledge slot: 1 where it sends the frame itself or found it bad, 0 where it received
the frame and found it good (R1, R2, R187). -/
def slotLevel (sender good : Bool) : Bool := sender || !good

/-- All that a sender sends for a frame: start bit through check, the acknowledge slot, and the least idle of 11 bits, these
without run-limit bits (R1, R187). -/
def sentFrame (kind : Nat) (source : Addr) (bytes : List Byte) : List Bool :=
  sentLevels kind source bytes ++ slotLevel true true :: List.replicate 11 true

/-- Bit times of a frame from start bit to acknowledge slot, without run-limit bits (R1). -/
def frameBitTimes (bytes : Nat) : Nat := 31 + 8 * bytes

/-- What a receiver reads from a good frame. -/
structure HeardFrame where
  kind : Nat
  source : Nat
  bytes : List Byte
deriving DecidableEq, Repr

/-- Cut bits into `n` bytes. -/
def cutBytes : Nat → List Bool → List Byte
  | 0, _ => []
  | n + 1, bits => BitVec.ofNat 8 (numberOf (bits.take 8)) :: cutBytes n (bits.drop 8)

/-- What a receiver makes of the levels from the start bit through the check: the frame where it is good, `none` where it
is bad (R2): incomplete, a length above 8, a run of six equal bits, or a check that differs. -/
def receive (levels : List Bool) : Option HeardFrame :=
  match removeRuns true 0 levels with
  | some (false :: rest) =>
    let n := numberOf ((rest.drop 9).take 4)
    let body := rest.take (13 + 8 * n)
    if n ≤ 8 ∧ rest.length = 29 + 8 * n ∧ bitsOf (crc16 body) = rest.drop (13 + 8 * n) then
      some
        { kind := numberOf (rest.take 4), source := numberOf ((rest.drop 4).take 5),
          bytes := cutBytes n (rest.drop 13) }
    else none
  | _ => none

/-- A frame that a receiver finds good (R2). -/
def frameGood (levels : List Bool) : Bool := (receive levels).isSome

end Sys2Proof.Machine
end

