-- ==== Sys2Proof/Machine/Operands.lean ====
section
/-! DEFINITION. Operand forms: command codes and their operand lengths, sets of named members, reply data
(spec/12_frame_and_image_layouts.md, R186, R189), and the configuration image read from bytes and checked
(spec/11_start_up_and_the_configuration_image.md, R180, R181; spec/12, R190). -/

namespace Sys2Proof.Machine

/-! ### Command codes and lengths (R189) -/

def codeRestart : Byte := 0x01#8
def codeTransitRead : Byte := 0x10#8
def codeTotalsRead : Byte := 0x11#8
def codeTotalsClear : Byte := 0x12#8
def codeChStart : Byte := 0x20#8
def codeChHalt : Byte := 0x21#8
def codeChHaltSave : Byte := 0x22#8
def codeChContinue : Byte := 0x23#8
def codeChQuery : Byte := 0x24#8
def codeLoopSetpoint : Byte := 0x30#8
def codeLoopEnable : Byte := 0x31#8
def codeLoopDisable : Byte := 0x32#8
def codeLevelFeedReset : Byte := 0x40#8
def codeAlarmAck : Byte := 0x50#8
def codePermitGrant : Byte := 0x60#8
def codePermitWithdraw : Byte := 0x61#8
def codePermitQuery : Byte := 0x62#8
def codeResume : Byte := 0x63#8

/-- The operand length of each command code; `none` for an unknown code (R189). -/
def operandLength (code : Byte) : Option Nat :=
  if code = codeRestart ∨ code = codeLevelFeedReset ∨ code = codeResume then some 0
  else if code = codeTotalsRead ∨ code = codeTotalsClear ∨ code = codeChStart ∨ code = codeChHalt ∨
      code = codeChHaltSave ∨ code = codeChContinue ∨ code = codeChQuery ∨ code = codeLoopEnable ∨
      code = codeLoopDisable ∨ code = codeAlarmAck then some 1
  else if code = codeTransitRead ∨ code = codePermitWithdraw ∨ code = codePermitQuery then some 2
  else if code = codeLoopSetpoint then some 3
  else if code = codePermitGrant then some 4
  else none

/-- A COMMAND payload whose code is unknown or whose length differs from the one its command defines (R15). A payload
too short to hold a code is of a wrong length for every command. -/
def malformedCommand : List Byte → Bool
  | _ :: code :: operands => decide (operandLength code ≠ some operands.length)
  | _ => true

/-! ### Sets of named members (R186) -/

/-- The channels that a channel set names, lowest first (R78, R186). -/
def chansOf (set : BitVec 8) : List Chan := [0, 1, 2, 3].filter fun k => set.getLsbD k.val

/-- The loops that a loop set names, lowest first (R102, R186). -/
def loopsOf (set : BitVec 8) : List LoopIx := [0, 1].filter fun i => set.getLsbD i.val

/-- A channel set that names a channel outside AC0-AC3 (R78, R189). -/
def chanSetOutOfRange (set : BitVec 8) : Bool := decide (set &&& 0xf0#8 ≠ 0)

/-- A loop set that names a loop outside HL0, HL1 (R102, R189). -/
def loopSetOutOfRange (set : BitVec 8) : Bool := decide (set &&& 0xfc#8 ≠ 0)

/-- A counter set that names a counter outside BOARDS and PULSES0-PULSES3 (R42, R189). -/
def counterSetOutOfRange (set : BitVec 8) : Bool := decide (set &&& 0xe0#8 ≠ 0)

/-- The set whose member n is in it where `f n` holds (R186). -/
def setOf (w : Nat) (members : List (Fin w)) (f : Fin w → Bool) : BitVec w :=
  members.foldl (fun acc n => if f n then acc ||| BitVec.twoPow w n.val else acc) 0

def allChans : List Chan := [0, 1, 2, 3]

def allLoops : List LoopIx := [0, 1]

def all8 : List Ix8 := [0, 1, 2, 3, 4, 5, 6, 7]

/-- The most severe of two results (R16). -/
def worse (a b : ResultCode) : ResultCode := if a.code < b.code then b else a

/-- Eight decimal digits of a total in four bytes, most significant first (R41, R189). -/
def bcdBytes (n : Nat) : List Byte :=
  [6, 4, 2, 0].map fun p => BitVec.ofNat 8 (16 * (n / 10 ^ (p + 1) % 10) + n / 10 ^ p % 10)

/-- A mark as a data byte: 1 for true (R186). -/
def markByte (b : Bool) : Byte := BitVec.ofNat 8 b.toNat

/-! ### Reading the image (R190) -/

/-- An unsigned byte field at an offset of a block. -/
def u8 (b : List Byte) (i : Nat) : Nat := (b.getD i 0).toNat

/-- An unsigned two-byte field. -/
def u16 (b : List Byte) (i : Nat) : Nat := 256 * u8 b i + u8 b (i + 1)

/-- An unsigned three-byte field. -/
def u24 (b : List Byte) (i : Nat) : Nat := 65536 * u8 b i + u16 b (i + 1)

/-- A signed two-byte field (R186). -/
def s16 (b : List Byte) (i : Nat) : Int := (BitVec.ofNat 16 (u16 b i)).toInt

/-- A bit of a byte field. -/
def bitAt (b : List Byte) (i n : Nat) : Bool := (b.getD i 0).getLsbD n

/-- The catalogue signal of a code; `none` for a code that is not listed (R190). -/
def sigOfCode (n : Nat) : Option Sig :=
  if n = 0 then some (.constant false)
  else if n = 1 then some (.constant true)
  else if n ≤ 9 then some (.pointRaised (Fin.ofNat 8 (n - 2)))
  else if n ≤ 17 then some (.cell (Fin.ofNat 8 (n - 10)))
  else if n ≤ 33 then some (.permit (Fin.ofNat 16 (n - 18)))
  else if n ≤ 35 then some (.gin (Fin.ofNat 2 (n - 34)))
  else if n ≤ 39 then some (.chreq (Fin.ofNat 4 (n - 36)))
  else if n ≤ 43 then some (.chend (Fin.ofNat 4 (n - 40)))
  else if n ≤ 47 then some (.busy (Fin.ofNat 4 (n - 44)))
  else if n ≤ 51 then some (.running (Fin.ofNat 4 (n - 48)))
  else if n ≤ 55 then some (.windowOccupied (Fin.ofNat 4 (n - 52)))
  else if n ≤ 65 then
    let i : LoopIx := if n ≤ 60 then 0 else 1
    match (n - 56) % 5 with
    | 0 => some (.flag .n i)
    | 1 => some (.flag .z i)
    | 2 => some (.flag .c i)
    | 3 => some (.flag .v i)
    | _ => some (.flag .l i)
  else if n ≤ 67 then some (.tcOpen (Fin.ofNat 2 (n - 66)))
  else if n ≤ 84 then
    [Sig.speedStale, .speedConflict, .boardMissed, .unknownBoard, .transitOverflow, .longBoard, .mainsLost,
      .levelInvalid, .levelSettling, .feedRequest, .feedTimeout, .airflowLow, .filterLoaded, .tableFull, .safeMode,
      .lineMute, .txqLost][n - 68]?
  else if n ≤ 92 then some (.watchRaised (Fin.ofNat 8 (n - 85)))
  else if n ≤ 100 then some (.watchSilent (Fin.ofNat 8 (n - 93)))
  else none

/-- A selection: inversion in bit 7 of its first byte, the signal's code in its second (R190). -/
def selectionAt (b : List Byte) (i : Nat) : Selection :=
  { sig := (sigOfCode (u8 b (i + 1))).getD (.constant false), inverted := bitAt b i 7 }

/-- The code of a selection is listed. -/
def selectionOk (b : List Byte) (i : Nat) : Bool := (sigOfCode (u8 b (i + 1))).isSome

/-- A stop-unit selector: a selection whose enable bit is read (R190). -/
def selectorAt (b : List Byte) (i : Nat) : StopSelector := { enabled := bitAt b i 6, signal := selectionAt b i }

/-- A general output's byte: bits 3-0 the cell (0 NONE, 1-8), bit 7 the inversion (R190). -/
def goutAt (b : List Byte) (i : Nat) : GoutCfg :=
  let n := u8 b i % 16
  { cell := if n = 0 then none else some (Fin.ofNat 8 (n - 1)), inverted := bitAt b i 7 }

/-- The station block (R190). -/
def stationOf (b : List Byte) : StationCfg :=
  { entrySource := bitAt b 0 0, speedSource := bitAt b 0 1, sensor := bitAt b 0 2
    encoderScale := u16 b 1, sensorPosition := u24 b 3, captureWindow := u8 b 6, forgetPosition := u24 b 7
    budget := u16 b 10, safeGrant := u16 b 12
    expected := BitVec.ofNat 32 (65536 * u16 b 14 + u16 b 16)
    gout0 := goutAt b 18, gout1 := goutAt b 19 }

/-- A base: bit set is 125 ms, clear is 1 ms (R190). -/
def baseOf (long : Bool) : Nat := if long then 125 else 1

/-- A channel mode code (R190). -/
def modeOf (n : Nat) : ChanMode :=
  match n with
  | 0 => .off
  | 1 => .free
  | 2 => .board
  | _ => .input

/-- A channel block (R190). -/
def chanOf (b : List Byte) : ChanCfg :=
  { mode := modeOf (u8 b 0), delay := u8 b 1, onTime := u8 b 2, period := u8 b 3
    onBase := baseOf (bitAt b 4 0), periodBase := baseOf (bitAt b 4 1), countLimit := u16 b 5
    rearmCount := bitAt b 7 0, rearmSingle := bitAt b 7 1, rearmWindow := bitAt b 7 2, rearmInputEnd := bitAt b 7 3
    completePulse := bitAt b 8 0, inverted := bitAt b 8 1, levelOwned := bitAt b 8 2
    permit := selectionAt b 9, nozzle := u24 b 11, leadMargin := u24 b 14, trailMargin := u24 b 17 }

/-- A loop block (R190). -/
def loopOf (b : List Byte) : LoopCfg :=
  { inUse := bitAt b 0 0, ganged := bitAt b 0 1, autoEnable := bitAt b 0 2, cls := (bitAt b 0 3).toNat
    spMin := u16 b 1, spMax := u16 b 3, defaultSp := u16 b 5, kp := u8 b 7, ki := u8 b 8, fBoard := u16 b 9
    deadband := u8 b 11, rated := u16 b 12, tcOffset := s16 b 14, permit := selectionAt b 16
    zoneStart := u24 b 18, zoneEnd := u24 b 21, lookahead := u8 b 24 }

/-- The level block (R190). -/
def levelOf (b : List Byte) : LevelCfg :=
  { inUse := decide (u8 b 0 = 1), wave := if u8 b 1 = 0 then none else some (Fin.ofNat 4 (u8 b 1 - 1))
    waveOffset := u16 b 2, settle := u8 b 4, feedOn := s16 b 5, feedOff := s16 b 7, maxFeed := u16 b 9 }

/-- The extraction block (R190). -/
def extractionOf (b : List Byte) : ExtractionCfg :=
  { inUse := decide (u8 b 0 = 1), base := u16 b 1, perBoard := u16 b 3, boost := u16 b 5
    watchedStation := u8 b 7, watchedChan := Fin.ofNat 4 (u8 b 8), rampStep := u16 b 9, activeThreshold := u16 b 11
    minAirflow := u16 b 13, clogThreshold := u16 b 15
    span1 := ⟨bitAt b 17 0, u24 b 18, u24 b 21⟩, span2 := ⟨bitAt b 17 1, u24 b 24, u24 b 27⟩ }

/-- An analog source code (R190). -/
def analogOf (n : Nat) : Analog :=
  match n with
  | 0 => .gain0
  | 1 => .gain1
  | 2 => .pv0
  | 3 => .pv1
  | 4 => .level
  | 5 => .airflow
  | _ => .fanOutput

/-- A qualification count code: 3, 6, 12 or 24 (R190). -/
def qualificationOf (n : Nat) : Nat :=
  match n with
  | 0 => 3
  | 1 => 6
  | 2 => 12
  | _ => 24

/-- A monitor point's block (R190). -/
def pointOf (b : List Byte) : PointCfg :=
  { inUse := bitAt b 0 0, isSignal := bitAt b 0 1, below := bitAt b 0 2, onSource := bitAt b 0 3, trip := bitAt b 0 4
    analog := analogOf (u8 b 1), signal := selectionAt b 2, threshold := s16 b 4, hysteresis := u16 b 6
    qualification := qualificationOf (u8 b 8) }

/-- A cell's function, from bits 2-1 of its flags (R190). -/
def cellFnOf (b1 b2 : Bool) : CellFn :=
  match b2, b1 with
  | false, false => .and
  | false, true => .or
  | true, false => .xor
  | true, true => .latch

/-- A cell's block (R190). -/
def cellOf (b : List Byte) : CellCfg :=
  { inUse := bitAt b 0 0, fn := cellFnOf (bitAt b 0 1) (bitAt b 0 2), inverted := bitAt b 0 3
    a := selectionAt b 1, b := selectionAt b 3, c := selectionAt b 5 }

/-- The stop unit's block (R190). -/
def stopOf (b : List Byte) : StopCfg :=
  { s0 := selectorAt b 0, s1 := selectorAt b 2, s2 := selectorAt b 4, triggerTime := u8 b 6, stopWidth := u8 b 7 }

/-- A peer watch slot's block (R190). -/
def slotOf (b : List Byte) : SlotCfg :=
  { inUse := bitAt b 0 7, station := u8 b 1, point := Fin.ofNat 8 (u8 b 0) }

/-- The bytes of a block, given where it begins in the block area and its size. -/
def blockAt (blocks : List Byte) (start size : Nat) : List Byte := (blocks.drop start).take size

def chanBlock (blocks : List Byte) (k : Nat) : List Byte := blockAt blocks (20 + 20 * k) 20
def loopBlock (blocks : List Byte) (i : Nat) : List Byte := blockAt blocks (100 + 25 * i) 25
def pointBlock (blocks : List Byte) (i : Nat) : List Byte := blockAt blocks (191 + 9 * i) 9
def cellBlock (blocks : List Byte) (i : Nat) : List Byte := blockAt blocks (263 + 7 * i) 7
def slotBlock (blocks : List Byte) (i : Nat) : List Byte := blockAt blocks (327 + 2 * i) 2

/-- The image's items from its 343 bytes of blocks (R190). -/
def imageOf (blocks : List Byte) : Image :=
  let ch := fun k => chanOf (chanBlock blocks k)
  let pt := fun i => pointOf (pointBlock blocks i)
  let ce := fun i => cellOf (cellBlock blocks i)
  let sl := fun i => slotOf (slotBlock blocks i)
  { station := stationOf (blockAt blocks 0 20)
    chans := #v[ch 0, ch 1, ch 2, ch 3]
    loops := #v[loopOf (loopBlock blocks 0), loopOf (loopBlock blocks 1)]
    level := levelOf (blockAt blocks 150 11)
    extraction := extractionOf (blockAt blocks 161 30)
    points := #v[pt 0, pt 1, pt 2, pt 3, pt 4, pt 5, pt 6, pt 7]
    cells := #v[ce 0, ce 1, ce 2, ce 3, ce 4, ce 5, ce 6, ce 7]
    stop := stopOf (blockAt blocks 319 8)
    slots := #v[sl 0, sl 1, sl 2, sl 3, sl 4, sl 5, sl 6, sl 7] }

/-! ### Checking the image (R180, R181) -/

/-- A number lies in a range. -/
def within (lo hi n : Nat) : Bool := decide (lo ≤ n ∧ n ≤ hi)

/-- A signed number lies in a range. -/
def withinInt (lo hi n : Int) : Bool := decide (lo ≤ n ∧ n ≤ hi)

/-- Block 0: ranges of the station items and 2 x safe grant <= B (R181). Bits 0 and 31 of the expected set name no address: they
are not read, and an image with one at 1 is accepted. DEDUCED (log 35), unsafe. -/
def stationOk (b : List Byte) : Bool :=
  let c := stationOf b
  within 1 1000 c.encoderScale && within 0 maxPosition c.sensorPosition && within 5 200 c.captureWindow &&
    within 0 7738606 c.forgetPosition && within 1 65535 c.budget && within 0 32767 c.safeGrant &&
    within 0 8 (u8 b 18 % 16) && within 0 8 (u8 b 19 % 16) && decide (2 * c.safeGrant ≤ c.budget)

end Sys2Proof.Machine

namespace Sys2Proof

/-- Length of a channel's on time in ms (R58). -/
def ChanCfg.onMs (c : ChanCfg) : Nat := c.onTime * c.onBase

/-- Length of a channel's period in ms (R58). -/
def ChanCfg.periodMs (c : ChanCfg) : Nat := c.period * c.periodBase

/-- Length of a channel's delay in ms (R58). -/
def ChanCfg.delayMs (c : ChanCfg) : Nat := c.delay * c.periodBase

/-- A steady channel: its on time is 0 (R58). -/
def ChanCfg.steady (c : ChanCfg) : Bool := decide (c.onTime = 0)

end Sys2Proof

namespace Sys2Proof.Machine

/-- A channel's block: ranges, and the combinations charged to it (R181). -/
def chanOk (img : Image) (b : List Byte) (k : Chan) : Bool :=
  let c := chanOf b
  within 0 3 (u8 b 0) && selectionOk b 9 && within 0 maxPosition c.nozzle && within 0 500000 c.leadMargin &&
    within 0 500000 c.trailMargin &&
    !(decide (c.onBase = 125) && decide (c.periodBase = 1)) &&
    (decide (c.onTime = 0) || decide (c.period = 0) || decide (c.onMs < c.periodMs)) &&
    (decide (c.mode = .off) || decide (c.nozzle + c.trailMargin ≤ img.station.forgetPosition)) &&
    (!c.levelOwned || decide (c.mode = .free)) &&
    (!c.levelOwned || !(allChans.any fun j => decide (j < k) && (img.chans[j]).levelOwned))

/-- A loop's block: ranges, and the combinations charged to it (R181). -/
def loopOk (img : Image) (b : List Byte) (i : LoopIx) : Bool :=
  let c := loopOf b
  within 0 5000 c.spMin && within 0 5000 c.spMax && within 0 500 c.fBoard && within 0 100 c.deadband &&
    within 1 2000 c.rated && withinInt (-100) 100 c.tcOffset && selectionOk b 16 && within 0 maxPosition c.zoneStart &&
    within 0 maxPosition c.zoneEnd && within 0 30 c.lookahead &&
    decide (c.spMin ≤ c.spMax) && within c.spMin c.spMax c.defaultSp &&
    (!c.inUse || decide (c.zoneEnd ≤ img.station.forgetPosition)) &&
    (!c.ganged || (decide (i = 1) && (img.loops[0]).inUse && c.inUse))

/-- The level-owned channel of an image: the lowest one so marked (R181 leaves at most one). -/
def ownedChanOf (img : Image) : Option Chan := allChans.find? fun k => (img.chans[k]).levelOwned

/-- The level block: ranges, and the combinations charged to it (R181). -/
def levelOk (img : Image) (b : List Byte) : Bool :=
  let c := levelOf b
  within 0 1 (u8 b 0) && within 0 4 (u8 b 1) && within 0 300 c.waveOffset && within 5 100 c.settle &&
    withinInt (-500) 500 c.feedOn && withinInt (-500) 500 c.feedOff && within 5 600 c.maxFeed &&
    decide (c.feedOn < c.feedOff) && (c.wave.isNone || decide (c.wave ≠ ownedChanOf img))

/-- The extraction block: ranges (chapter 8). -/
def extractionOk (b : List Byte) : Bool :=
  let c := extractionOf b
  within 0 1 (u8 b 0) && within 0 1000 c.base && within 0 1000 c.perBoard && within 0 1000 c.boost &&
    within 0 30 c.watchedStation && within 0 3 (u8 b 8) && within 1 1000 c.rampStep &&
    within 1 1000 c.activeThreshold && within 0 2000 c.minAirflow && within 0 2000 c.clogThreshold &&
    within 0 maxPosition c.span1.first && within 0 maxPosition c.span1.last &&
    within 0 maxPosition c.span2.first && within 0 maxPosition c.span2.last

/-- A monitor point's block: ranges (R147). -/
def pointOk (b : List Byte) : Bool :=
  let c := pointOf b
  within 0 6 (u8 b 1) && selectionOk b 2 && withinInt (-500) 5000 c.threshold && within 0 1000 c.hysteresis &&
    within 0 3 (u8 b 8)

/-- An input of cell `i` that is not the output of cell `i` or of a higher one (R165, R181). -/
def cellInputOk (i : Ix8) (s : Selection) : Bool :=
  match s.sig with
  | .cell j => decide (j < i)
  | _ => true

/-- A cell's block: ranges, and the combination charged to it (R181). -/
def cellOk (b : List Byte) (i : Ix8) : Bool :=
  let c := cellOf b
  selectionOk b 1 && selectionOk b 3 && selectionOk b 5 && cellInputOk i c.a && cellInputOk i c.b && cellInputOk i c.c

/-- The stop unit's block: ranges (R170). -/
def stopOk (b : List Byte) : Bool := selectionOk b 0 && selectionOk b 2 && selectionOk b 4

/-- A peer watch slot's block: ranges (R160). -/
def slotOk (b : List Byte) : Bool := within 1 30 (u8 b 1)

/-- The tests of the 34 blocks, in index order (R180, step 3). -/
def blockTests (blocks : List Byte) : List Bool :=
  let img := imageOf blocks
  [stationOk (blockAt blocks 0 20)] ++ (allChans.map fun (k : Chan) => chanOk img (chanBlock blocks k) k) ++
    (allLoops.map fun (i : LoopIx) => loopOk img (loopBlock blocks i) i) ++
    [levelOk img (blockAt blocks 150 11), extractionOk (blockAt blocks 161 30)] ++
    (all8.map fun (i : Ix8) => pointOk (pointBlock blocks i)) ++ (all8.map fun (i : Ix8) => cellOk (cellBlock blocks i) i) ++
    [stopOk (blockAt blocks 319 8)] ++ (all8.map fun (i : Ix8) => slotOk (slotBlock blocks i))

/-- What the loader finds of an image it has read (R180). -/
inductive ImageVerdict where
  | incomplete
  | bad
  | invalid (block : Nat)
  | accepted (img : Image)
deriving DecidableEq, Repr

/-- The format tag of the ZC30 (R190). -/
def formatTag : Nat := 0xc330

/-- The length of the fixed block sequence (R190). -/
def blocksLength : Nat := 343

/-- The check of an image that was read (R180): the header first, and where it is wrong the rest is not looked at; then
the CRC over header and blocks; then the blocks in index order. Bytes beyond the check are not read (R190). Fewer bytes
than the header or the image needs are no completed read (log 26). -/
def checkImage (bytes : List Byte) : ImageVerdict :=
  if bytes.length < 4 then .incomplete
  else if u16 bytes 0 ≠ formatTag ∨ u16 bytes 2 ≠ blocksLength then .bad
  else if bytes.length < 6 + blocksLength then .incomplete
  else if (crc16 (bitsOfBytes (bytes.take (4 + blocksLength)))).toNat ≠ u16 bytes (4 + blocksLength) then .bad
  else
    let blocks := (bytes.drop 4).take blocksLength
    match (blockTests blocks).findIdx? (fun ok => !ok) with
    | some i => .invalid i
    | none => .accepted (imageOf blocks)

end Sys2Proof.Machine
end

