-- ==== Sys2Proof/Syntax.lean ====
section
/-! DEFINITION. The commands of the block: one constructor for each row of spec/opcode_table.json, in its order, with the
operands that the event carries. -/

namespace Sys2Proof

/-- The 81 commands and events of the ZC30. -/
inductive Instr where
  | attemptStart
  | lostArbitration
  | attemptFailed
  | frameBad (levels : List Bool)
  | frameTakenUndelivered (rx : Rx RawFrame)
  | replyTaken (rx : Rx Unit)
  | commandNotAddressed (h : CmdHeader)
  | unknownCommand (source : Addr) (payload : List Byte)
  | restart (h : CmdHeader)
  | restartTimerExpiry
  | transitRead (h : CmdHeader) (index part : Byte)
  | totalsRead (h : CmdHeader) (counter : Byte)
  | totalsClear (h : CmdHeader) (counters : BitVec 8)
  | chStart (h : CmdHeader) (chans : BitVec 8)
  | chHalt (h : CmdHeader) (chans : BitVec 8)
  | chHaltSave (h : CmdHeader) (chans : BitVec 8)
  | chContinue (h : CmdHeader) (chans : BitVec 8)
  | chQuery (h : CmdHeader) (chan : Byte)
  | loopSetpoint (h : CmdHeader) (loop : Byte) (value : BitVec 16)
  | loopEnable (h : CmdHeader) (loops : BitVec 8)
  | loopDisable (h : CmdHeader) (loops : BitVec 8)
  | levelFeedReset (h : CmdHeader)
  | alarmAck (h : CmdHeader) (points : BitVec 8)
  | permitGrant (h : CmdHeader) (grant withdraw : BitVec 16)
  | permitWithdraw (h : CmdHeader) (withdraw : BitVec 16)
  | permitQuery (h : CmdHeader) (test : BitVec 16)
  | resume (h : CmdHeader)
  | entryLeadingEdge (tag : BitVec 3)
  | entryTrailingEdge
  | longBoardTimerExpiry
  | entryTaken (rx : Rx EntryContent)
  | sightLeadingEdge
  | sightTrailingEdge
  | ownSightTaken
  | peerSightLeadTaken (source : Addr) (id : Byte) (position : BitVec 23) (measured : BitVec 16)
  | peerSightTrailTaken (source : Addr) (id : Byte) (position : BitVec 23) (measured : BitVec 16)
  | encPulse
  | speedWindowExpiry
  | speedTaken (rx : Rx (BitVec 16))
  | staleTimerExpiry
  | sourceTimerExpiry
  | conflictTimerExpiry
  | trackingIntervalExpiry
  | delayExpiry (k : Chan)
  | onTimeExpiry (k : Chan)
  | offPhaseExpiry (k : Chan)
  | haltingExpiry (k : Chan)
  | chreqAssertion (k : Chan)
  | chendAssertion (k : Chan)
  | generalInputChange (pin : Fin 2) (level : Bool)
  | tcConversion (raw0 raw1 : Fin 5001)
  | zeroCrossing (sinceLast : Nat)
  | mainsLost
  | controlPeriodExpiry
  | demandTaken (rx : Rx DemandContent)
  | entryAgeExpiry (station : Nat) (loop : LoopIx)
  | refusalTimerExpiry
  | startTimerExpiry
  | levelSample (reading : BitVec 10)
  | settleTimerExpiry
  | feedTimerExpiry
  | extractionTimerExpiry (reading : Nat)
  | monitorTimerExpiry (gain0 gain1 : Fin 1001)
  | gapTimerExpiry
  | statusTimerExpiry
  | stateTaken (rx : Rx StateContent)
  | joinTaken (rx : Rx JoinContent)
  | alarmTaken (rx : Rx AlarmContent)
  | silenceTimerExpiry (station : Addr)
  | graceTimerExpiry
  | triggerTimerExpiry
  | widthTimerExpiry
  | stopTaken (rx : Rx (BitVec 3))
  | reset (cause : HeldCause)
  | resetRelease (cause : HeldCause) (straps : BitVec 5)
  | imageReadComplete (bytes : List Byte)
  | imageReadFailed (cause : ReadFailure)
  | readRetryWaitExpiry
  | joinTimerExpiry (raw0 raw1 : Fin 5001) (level : BitVec 10)
  | firstIdleAfterReset
  | requestOrEndInputRelease (isEnd : Bool) (k : Chan)
deriving DecidableEq, Repr

end Sys2Proof
end

