-- ==== Sys2Proof/Machine/State.lean ====
section
/-! DEFINITION. The state of the ZC30, block by block, as plain data; the reasons a step may stop; the machine right after
reset (spec/11_start_up_and_the_configuration_image.md, R176, and each chapter's reset table). Timers hold the ms left. -/

namespace Sys2Proof.Machine

/-! ### Line interface (spec/01_the_station_line.md) -/

/-- An attempt in flight: the content and loss mark it started with, and whether its entry has been replaced since (R9). -/
structure Flight where
  frame : Frame
  mark : Bool
  replaced : Bool
deriving DecidableEq, Repr

/-- An entry of the transmit queue (R8): the frame, its loss mark (R10, of a STATE content), its attempt count, the time it
was queued, in ms and as the number of its moment (log 27), the attempt in flight, and whether it is the REPLY whose end a
pending restart waits for (R177). -/
structure QEntry where
  frame : Frame
  mark : Bool
  attempts : Nat
  queuedAt : Nat
  moment : Nat
  flight : Option Flight
  restart : Bool
deriving DecidableEq, Repr

/-- State of the line interface (R6 to R12). `ack` says that the part drove the last acknowledge slot dominant, as a receiver that
found the frame good does and its sender does not (R1); `synced` that the idle awaited after a reset has been seen (R2). -/
structure LineInterface where
  queue : List QEntry
  line : LineState
  discards : Nat
  good : Nat
  filter : Option Addr
  txqLost : Bool
  synced : Bool
  ack : Bool
deriving DecidableEq, Repr

/-! ### Transit tracker (spec/02_board_transit_table.md, spec/03_conveyor_speed_and_position_arithmetic.md) -/

/-- A board record (R20). `inWin` is the model's own: the windows the board occupied at the last evaluation, so that R37's
"begins to occupy" can be told. -/
structure BoardRec where
  id : Byte
  length : Nat
  tag : BitVec 3
  lead : Nat
  origin : Origin
  sighted : Bool
  missed : Bool
  served : BitVec 4
  inWin : BitVec 4
deriving DecidableEq, Repr

/-- A production total with its rolled mark (R40). -/
structure Total where
  value : Nat
  rolled : Bool
deriving DecidableEq, Repr

/-- Window state and occupying count of a channel (R51, R52). -/
structure Window where
  isOpen : Bool
  count : Nat
deriving DecidableEq, Repr

/-- State of the transit tracker (R20 to R56). -/
structure Tracker where
  table : List BoardRec
  entryActive : Bool
  entryAcc : Nat
  entryTag : BitVec 3
  sightActive : Bool
  sightAcc : Nat
  nextId : Nat
  overflow : Bool
  longBoard : Bool
  longTimer : Timer
  totals : Vector Total 5
  pulses : Nat
  speedWindow : Timer
  speed : Nat
  source : Option Addr
  stale : Bool
  conflict : Bool
  staleTimer : Timer
  sourceTimer : Timer
  conflictTimer : Timer
  interval : Timer
  windows : Vector Window 4
  due : Vector Nat 2
  fume : Nat
deriving DecidableEq, Repr

/-! ### Actuation channels (spec/04_actuation_channels.md) -/

/-- A saved context (R60, R82). -/
structure Saved where
  st : ChanState
  left : Timer
  pulses : Nat
deriving DecidableEq, Repr

/-- State of a channel (R60). -/
structure Channel where
  st : ChanState
  timer : Timer
  pulses : Nat
  saved : Option Saved
  cause : Cause
  blockedMark : Bool
deriving DecidableEq, Repr

/-! ### Heat loops (spec/05_heat_loops.md) -/

/-- State of a heat loop (R105); `half` is the half-cycle count n of the current period, `pos` the period position. -/
structure HeatLoop where
  sp : Nat
  pv : Nat
  openCnt : Nat
  goodCnt : Nat
  tcOpen : Bool
  enabled : Bool
  integ : Nat
  u : Nat
  uOut : Nat
  clamp : Clamp
  n : Bool
  z : Bool
  c : Bool
  v : Bool
  l : Bool
  carry : Nat
  half : Nat
  pos : Nat
  lastD : Nat
deriving DecidableEq, Repr

/-- The two loops and what is common to them: conversion timer (R86), mains timing (R88, R89), whether control periods have
begun (R90). `lastCrossing` is the model's time of the last counted crossing. -/
structure HeatLoops where
  loops : Vector HeatLoop 2
  tcTimer : Timer
  zcTimer : Timer
  lastCrossing : Option Nat
  mainsLost : Bool
  begun : Bool
deriving DecidableEq, Repr

/-! ### Budget unit (spec/06_supply_budget_sharing.md) -/

/-- An entry of the peer demand table (R106); `age` is the time left before removal. -/
structure DemandEntry where
  station : Nat
  loop : LoopIx
  cls : Nat
  demand : Nat
  age : Nat
deriving DecidableEq, Repr

/-- An own entry as the share basis fixes it (R112). -/
structure OwnShare where
  cls : Nat
  demand : Nat
deriving DecidableEq, Repr

/-- The share basis (R112). -/
structure ShareBasis where
  s0 : Nat
  s1 : Nat
  own0 : Option OwnShare
  own1 : Option OwnShare
  safe : Bool
deriving DecidableEq, Repr

/-- State of the budget unit (R111). -/
structure Budget where
  table : List DemandEntry
  refusalTimer : Timer
  tableFull : Bool
  startTimer : Timer
  basis : Option ShareBasis
deriving DecidableEq, Repr

/-! ### Level unit (spec/07_solder_pot_level_and_replenishment.md) -/

/-- State of the level unit (R133). -/
structure LevelUnit where
  raw : Int
  valid : Nat
  invalid : Bool
  wave : Bool
  settleTimer : Timer
  comp : Int
  request : Bool
  feeder : Feeder
  feedTimer : Timer
  feedTimeout : Bool
  inhibit : Bool
  levelTimer : Timer
deriving DecidableEq, Repr

/-! ### Extraction unit (spec/08_fume_extraction.md) -/

/-- State of the extraction unit (R143); `pwm` is the fan output that the current cycle of FANPWM drives (R134). -/
structure ExtractionUnit where
  watched : Bool
  target : Nat
  output : Nat
  airflow : Nat
  timer : Timer
  low : Bool
  loaded : Bool
  pwm : Nat
deriving DecidableEq, Repr

/-! ### Monitor block (spec/09_monitor_points_alarms_and_station_status.md) -/

/-- State of a monitor point (R147, R150); `memory` is the comparison memory, true for present. -/
structure Point where
  st : PointState
  count : Nat
  memory : Bool
deriving DecidableEq, Repr

/-- An entry of the peer view table that is present (R157); an address with none is absent. -/
structure PeerEntry where
  addr : Addr
  stateSeen : Bool
  raised : BitVec 8
  running : BitVec 4
  silence : Timer
  silent : Bool
deriving DecidableEq, Repr

/-- State of the monitor block (R146 to R161). -/
structure Monitor where
  points : Vector Point 8
  gain0 : Nat
  gain1 : Nat
  monitorTimer : Timer
  alarm : AlarmLine
  gapTimer : Timer
  statusTimer : Timer
  peers : List PeerEntry
  graceTimer : Timer
  graceExpired : Bool
deriving DecidableEq, Repr

/-! ### Interlock block (spec/10_permits_interlock_cells_and_line_stop.md) -/

/-- Output and latch of an interlock cell (R165, R167). -/
structure Cell where
  out : Bool
  latch : Bool
deriving DecidableEq, Repr

/-- The last stop record (R173). -/
structure StopRecord where
  source : Addr
  causes : BitVec 3
deriving DecidableEq, Repr

/-- State of the interlock block (R162 to R175). -/
structure Interlock where
  permits : BitVec 16
  cells : Vector Cell 8
  stopUnit : StopUnit
  triggerTimer : Timer
  stopOut : StopOutput
  widthTimer : Timer
  process : ProcessState
  lastStop : Option StopRecord
deriving DecidableEq, Repr

/-! ### Configuration loader (spec/11_start_up_and_the_configuration_image.md) -/

/-- State of the configuration loader (R176 to R185). `address` is the sampled address where it is valid; of a read in progress
`readTimer` is what is left of the 100 ms from its start, and `busTimer` what is left of the 10 ms in which the serial bus must
become free, while the read has not started; `retryTimer` is the wait after a failed read (R179), `started` whether the station
has been OPERATING since reset; `resetDue` marks the reset of an accepted RESTART within the event that brings it (R177). -/
structure Loader where
  station : StationState
  address : Option Addr
  fault : FaultCode
  offending : Nat
  readFails : Nat
  joinTimer : Timer
  joinMark : Bool
  restartPending : Bool
  restartTimer : Timer
  retryTimer : Timer
  readTimer : Timer
  busTimer : Timer
  image : Image
  started : Bool
  resetDue : Bool
  heldPower : Bool
  heldPin : Bool
deriving DecidableEq, Repr

/-- Levels of the input pins that the part reads as levels (R25, R145, R178). -/
structure Pins where
  straps : BitVec 5
  gin : Vector Bool 2
  chreq : Vector Bool 4
  chend : Vector Bool 4
  bsens : Bool
deriving DecidableEq, Repr

/-- The model's own clock: the ms that have passed, the number of the present moment, and the moment of the last expiry that the
clock brought. A command is of a moment of its own; the expiries that fall due in one ms are of one moment (log 27). -/
structure ModelClock where
  ms : Nat
  moment : Nat
  expiry : Nat
deriving DecidableEq, Repr

/-- The state of the part and, last, the model's own fields: its clock, its counter of free values, and the queue of commands
that are waiting. -/
structure State where
  li : LineInterface
  tt : Tracker
  ac : Vector Channel 4
  hl : HeatLoops
  bu : Budget
  lu : LevelUnit
  xu : ExtractionUnit
  mb : Monitor
  ib : Interlock
  cl : Loader
  pins : Pins
  now : ModelClock
  free : Nat
  pending : List Instr
deriving DecidableEq, Repr

/-- Why the machine stops with a fault: nothing does. The manual gives every event an effect or says that it is ignored. -/
inductive Fault where
deriving DecidableEq, Repr

/-- Why a command has no meaning. -/
inductive Refusal where
  /-- The command has no meaning yet: raised by exec's arm for it, and safe. -/
  | notModelled (mnemonic : String)
deriving DecidableEq, Repr

/-! ### The values after reset -/

/-- A channel after reset (R60). -/
def Channel.reset : Channel :=
  { st := .idle, timer := none, pulses := 0, saved := none, cause := .noCause, blockedMark := false }

/-- A heat loop after reset, before an image is accepted (R105). -/
def HeatLoop.reset : HeatLoop :=
  { sp := 0, pv := 0, openCnt := 0, goodCnt := 0, tcOpen := false, enabled := false, integ := 0, u := 0, uOut := 0
    clamp := .unclamped, n := false, z := false, c := false, v := false, l := false, carry := 0, half := 0, pos := 0
    lastD := 0 }

/-- A production total after reset (R40). -/
def Total.zero : Total := { value := 0, rolled := false }

/-- The line interface after reset (R12). -/
def LineInterface.reset : LineInterface :=
  { queue := [], line := .active, discards := 0, good := 0, filter := none, txqLost := false, synced := false
    ack := false }

/-- The transit tracker after reset (R24, R47). -/
def Tracker.reset : Tracker :=
  { table := [], entryActive := false, entryAcc := 0, entryTag := 0, sightActive := false, sightAcc := 0, nextId := 1
    overflow := false, longBoard := false, longTimer := none, totals := Vector.replicate 5 Total.zero, pulses := 0
    speedWindow := none, speed := 0, source := none, stale := false, conflict := false, staleTimer := none
    sourceTimer := none, conflictTimer := none, interval := none
    windows := Vector.replicate 4 { isOpen := false, count := 0 }, due := Vector.replicate 2 0, fume := 0 }

/-- The heat loops after reset (R105). -/
def HeatLoops.reset : HeatLoops :=
  { loops := Vector.replicate 2 HeatLoop.reset, tcTimer := none, zcTimer := none, lastCrossing := none
    mainsLost := false, begun := false }

/-- The budget unit after reset (R111). -/
def Budget.reset : Budget :=
  { table := [], refusalTimer := none, tableFull := false, startTimer := none, basis := none }

/-- The level unit after reset (R133). -/
def LevelUnit.reset : LevelUnit :=
  { raw := 0, valid := 0, invalid := false, wave := false, settleTimer := none, comp := 0, request := false
    feeder := .rest, feedTimer := none, feedTimeout := false, inhibit := false, levelTimer := none }

/-- The extraction unit after reset (R143). -/
def ExtractionUnit.reset : ExtractionUnit :=
  { watched := false, target := 0, output := 0, airflow := 0, timer := none, low := false, loaded := false, pwm := 0 }

/-- The monitor block after reset (R146, R147, R154, R155, R157, R161). -/
def Monitor.reset : Monitor :=
  { points := Vector.replicate 8 { st := .normal, count := 0, memory := false }, gain0 := 0, gain1 := 0
    monitorTimer := none, alarm := .deasserted, gapTimer := none, statusTimer := none, peers := [], graceTimer := none
    graceExpired := false }

/-- The interlock block after reset (R162, R165, R170, R172 to R174). -/
def Interlock.reset : Interlock :=
  { permits := 0, cells := Vector.replicate 8 { out := false, latch := false }, stopUnit := .waiting
    triggerTimer := none, stopOut := .off, widthTimer := none, process := .stopped, lastStop := none }

/-- The configuration loader after reset, with no reset cause held (R176); the image as log 10 says. -/
def Loader.reset : Loader :=
  { station := .loading, address := none, fault := .noFault, offending := 0, readFails := 0, joinTimer := none
    joinMark := false, restartPending := false, restartTimer := none, retryTimer := none, readTimer := none
    busTimer := none, image := .blank, started := false, resetDue := false, heldPower := false, heldPin := false }

/-- The input pins before anything has driven them: all low. DESIGN CHOICE (log 7), unsafe: the manual gives no level. -/
def Pins.start : Pins :=
  { straps := 0, gin := Vector.replicate 2 false, chreq := Vector.replicate 4 false, chend := Vector.replicate 4 false
    bsens := false }

/-- The machine in its power-on reset: every block at its values after reset, VDD below its minimum (R176), which
RESET_RELEASE ends. DESIGN CHOICE (log 1), safe: the moment of the reset at which the model begins. -/
def State.reset : State :=
  { li := .reset, tt := .reset, ac := Vector.replicate 4 Channel.reset, hl := .reset, bu := .reset, lu := .reset
    xu := .reset, mb := .reset, ib := .reset, cl := { Loader.reset with heldPower := true }, pins := .start
    now := { ms := 0, moment := 1, expiry := 0 }, free := 0, pending := [] }

end Sys2Proof.Machine
end

