-- ==== Sys2Proof/Machine/Flags.lean ====
section
/-! DEFINITION. Conditions that are read from the state: the signal catalogue (R145), safe mode (R115), the stop condition
(R170), the watch signals (R160, R161), what the readers of the catalogue see, the output pins, and the numbers that the
blocks compute (time-to-reach, loop terms, grants, ramp, content of STATE and JOIN). -/

namespace Sys2Proof.Machine

/-! ### Station -/

/-- The part is held in reset (R176). -/
def State.held (s : State) : Bool := s.cl.heldPower || s.cl.heldPin

/-- The line interface receives frames: not held in reset, and past the first idle after it (R2). -/
def State.receiving (s : State) : Bool := !s.held && s.li.synced

/-- The station state is OPERATING. -/
def State.operating (s : State) : Bool := decide (s.cl.station = .operating)

/-- The blocks that start at the entry to OPERATING act: in OPERATING, and in CONFLICT where it was entered from OPERATING
(R24, R86, R105, R120, R134, R147). -/
def State.active (s : State) : Bool :=
  s.operating || (decide (s.cl.station = .conflict) && s.cl.started)

/-- The cells and general outputs act: from JOINING on (R165, R169). -/
def State.cellsAct (s : State) : Bool :=
  match s.cl.station with
  | .joining | .operating | .conflict => true
  | _ => false

/-- The station's own address, 0 while none is valid. -/
def State.ownAddr (s : State) : Addr := s.cl.address.getD 0

/-! ### Channels and windows -/

/-- A channel is busy (R61). -/
def Channel.busy (c : Channel) : Bool := decide (c.st ≠ .idle)

/-- A channel is running (R61). -/
def Channel.running (c : Channel) : Bool :=
  match c.st with
  | .delay | .on | .off | .halting => true
  | _ => false

/-- The trail position of a record (R20). -/
def BoardRec.trail (r : BoardRec) : Int := (r.lead : Int) - 1000 * (r.length : Int)

/-- A record occupies a channel's window (R51); a channel in mode OFF has none. -/
def occupies (c : ChanCfg) (r : BoardRec) : Bool :=
  decide (c.mode ≠ .off) && decide ((c.nozzle : Int) - c.leadMargin ≤ r.lead) &&
    decide (r.trail ≤ (c.nozzle : Int) + c.trailMargin)

/-- The record is served for a channel (R37). -/
def BoardRec.servedFor (r : BoardRec) (k : Chan) : Bool := r.served.getLsbD k.val

/-- Unserved present (R53). -/
def State.unservedPresent (s : State) (k : Chan) : Bool :=
  s.tt.table.any fun r => occupies s.cl.image.chans[k] r && !r.servedFor k

/-- Window occupied (R51). -/
def State.windowOccupied (s : State) (k : Chan) : Bool := decide (1 ≤ s.tt.windows[k].count)

/-! ### Heat loops -/

/-- HL1 takes its output from HL0 (R100). -/
def State.ganged (s : State) (i : LoopIx) : Bool := decide (i = 1) && s.cl.image.loops[(1 : LoopIx)].ganged

/-- TC_OPEN of a loop; that of a ganged HL1 is HL0's (R100). -/
def State.tcOpenOf (s : State) (i : LoopIx) : Bool :=
  if s.ganged i then s.hl.loops[(0 : LoopIx)].tcOpen else s.hl.loops[i].tcOpen

/-- PV of a loop as a monitor source; PV1 of a ganged HL1 is HL0's (R100, R146). -/
def State.pvOf (s : State) (i : LoopIx) : Nat :=
  if s.ganged i then s.hl.loops[(0 : LoopIx)].pv else s.hl.loops[i].pv

/-! ### Tracker, budget, peers -/

/-- The effective speed (R44). -/
def State.effectiveSpeed (s : State) : Nat := if s.tt.stale then 0 else s.tt.speed

/-- UNKNOWN_BOARD (R30). -/
def State.unknownBoard (s : State) : Bool := s.tt.table.any fun r => decide (r.id = 0)

/-- BOARD_MISSED (R35). -/
def State.boardMissed (s : State) : Bool := s.tt.table.any fun r => r.missed

/-- The own entry of a loop in the demand table (R106). -/
def State.ownEntry (s : State) (i : LoopIx) : Option DemandEntry :=
  s.bu.table.find? fun e => decide (e.station = s.ownAddr.toNat) && decide (e.loop = i)

/-- An own loop in use and enabled has no entry (R115). -/
def State.ownAbsent (s : State) (i : LoopIx) : Bool :=
  s.cl.image.loops[i].inUse && s.hl.loops[i].enabled && (s.ownEntry i).isNone

/-- SAFE_MODE (R115). It is false before OPERATING, also where an enabled loop has no entry in JOINING: R111 has it become true at
the entry to OPERATING. DEDUCED (log 34), safe. -/
def State.safeMode (s : State) : Bool :=
  match s.cl.station with
  | .operating => s.bu.startTimer.isSome || s.bu.tableFull || s.ownAbsent 0 || s.ownAbsent 1
  | .conflict => true
  | _ => false

/-- The present entry of an address in the peer view table (R157). -/
def State.peer (s : State) (a : Addr) : Option PeerEntry := s.mb.peers.find? fun e => decide (e.addr = a)

/-- The running set has a channel. -/
def PeerEntry.runs (e : PeerEntry) (k : Chan) : Bool := e.running.getLsbD k.val

/-- The watched wave as it counts now (R135, R136). -/
def State.watchedWave (s : State) : Bool :=
  let cfg := s.cl.image.extraction
  if cfg.watchedStation = 0 then false
  else if cfg.watchedStation = s.ownAddr.toNat then s.ac[cfg.watchedChan].running
  else
    match s.peer (BitVec.ofNat 5 cfg.watchedStation) with
    | none => true
    | some e => !e.stateSeen || e.silent || e.runs cfg.watchedChan

/-- *Watched point raised* of a slot (R160). -/
def State.slotRaised (s : State) (i : Ix8) : Bool :=
  let slot := s.cl.image.slots[i]
  slot.inUse &&
    match s.peer (BitVec.ofNat 5 slot.station) with
    | none => false
    | some e => !e.silent && e.raised.getLsbD slot.point.val

/-- *Watched station silent* of a slot (R161). -/
def State.slotSilent (s : State) (i : Ix8) : Bool :=
  let slot := s.cl.image.slots[i]
  slot.inUse && s.cl.image.station.expected.getLsbD slot.station && s.mb.graceExpired &&
    match s.peer (BitVec.ofNat 5 slot.station) with
    | none => true
    | some e => e.silent

/-! ### Monitor points -/

/-- The point is RAISED or RAISED-ACKED (R145). -/
def Point.raised (p : Point) : Bool :=
  match p.st with
  | .raised | .raisedAcked => true
  | _ => false

/-- The point is RAISED or CLEARED-UNACKED (R153). -/
def Point.alarmed (p : Point) : Bool :=
  match p.st with
  | .raised | .clearedUnacked => true
  | _ => false

/-- Some point holds the alarm line (R153). -/
def State.anyAlarmed (s : State) : Bool := s.mb.points.any Point.alarmed

/-- The raised set (R156). -/
def State.raisedSet (s : State) : BitVec 8 := setOf 8 all8 fun i => s.mb.points[i].raised

/-- The unacknowledged set (R156). -/
def State.unackedSet (s : State) : BitVec 8 := setOf 8 all8 fun i => s.mb.points[i].alarmed

/-! ### The catalogue (R145) -/

/-- A flag of a loop (R94). -/
def HeatLoop.flag (l : HeatLoop) : LoopFlag → Bool
  | .n => l.n
  | .z => l.z
  | .c => l.c
  | .v => l.v
  | .l => l.l

/-- The value of a catalogue signal (R145). -/
def State.signal (s : State) : Sig → Bool
  | .constant b => b
  | .pointRaised i => s.mb.points[i].raised
  | .cell i => s.ib.cells[i].out
  | .permit i => s.ib.permits.getLsbD i.val
  | .gin i => s.pins.gin[i]
  | .chreq k => s.pins.chreq[k]
  | .chend k => s.pins.chend[k]
  | .busy k => s.ac[k].busy
  | .running k => s.ac[k].running
  | .windowOccupied k => s.windowOccupied k
  | .flag f i => s.hl.loops[i].flag f
  | .tcOpen i => s.tcOpenOf i
  | .speedStale => s.tt.stale
  | .speedConflict => s.tt.conflict
  | .boardMissed => s.boardMissed
  | .unknownBoard => s.unknownBoard
  | .transitOverflow => s.tt.overflow
  | .longBoard => s.tt.longBoard
  | .mainsLost => s.hl.mainsLost
  | .levelInvalid => s.lu.invalid
  | .levelSettling => s.lu.settleTimer.isSome
  | .feedRequest => s.lu.request
  | .feedTimeout => s.lu.feedTimeout
  | .airflowLow => s.xu.low
  | .filterLoaded => s.xu.loaded
  | .tableFull => s.bu.tableFull
  | .safeMode => s.safeMode
  | .lineMute => decide (s.li.line = .mute)
  | .txqLost => s.li.txqLost
  | .watchRaised i => s.slotRaised i
  | .watchSilent i => s.slotSilent i

/-- A selected signal, after its inversion (R145). -/
def State.select (s : State) (x : Selection) : Bool := s.signal x.sig ^^ x.inverted

/-- The permit signal of a channel (R57). -/
def State.chanPermit (s : State) (k : Chan) : Bool := s.select s.cl.image.chans[k].permit

/-- The permit signal of a loop (R104). -/
def State.loopPermit (s : State) (i : LoopIx) : Bool := s.select s.cl.image.loops[i].permit

/-- A selector that does not keep the stop condition false (R170). -/
def State.selectorMet (s : State) (x : StopSelector) : Bool := !x.enabled || s.select x.signal

/-- The stop condition (R170). -/
def State.stopCondition (s : State) : Bool :=
  let c := s.cl.image.stop
  (c.s0.enabled || c.s1.enabled || c.s2.enabled) && s.selectorMet c.s0 && s.selectorMet c.s1 && s.selectorMet c.s2

/-- The cause set of a trigger: the enabled selectors (R171). -/
def State.stopCauses (s : State) : BitVec 3 :=
  let c := s.cl.image.stop
  BitVec.ofBool c.s2.enabled ++ BitVec.ofBool c.s1.enabled ++ BitVec.ofBool c.s0.enabled

/-- A loop is forced off (R98); for a ganged HL1 the TC_OPEN is HL0's (R100). -/
def State.forcedOff (s : State) (i : LoopIx) : Bool :=
  !s.hl.loops[i].enabled || !s.loopPermit i || s.tcOpenOf i

/-- Feeding is allowed (R126); `ownedChanOf` is the level-owned channel of the image. -/
def State.feedAllowed (s : State) : Bool :=
  s.cl.image.level.inUse && (ownedChanOf s.cl.image).isSome && s.operating && decide (s.ib.process = .run) &&
    s.lu.request && !s.lu.inhibit && !s.lu.feedTimeout && !s.lu.invalid

/-! ### What the readers see -/

/-- The catalogue signals of the channels, the loops and the pins. -/
def deviceSigs : List Sig :=
  List.flatten
    [[0, 1].map Sig.gin, allChans.map Sig.chreq, allChans.map Sig.chend, allChans.map Sig.busy, allChans.map Sig.running,
      allChans.map Sig.windowOccupied,
      allLoops.flatMap fun i => [Sig.flag .n i, Sig.flag .z i, Sig.flag .c i, Sig.flag .v i, Sig.flag .l i, Sig.tcOpen i]]

/-- The conditions of the catalogue that stand alone. -/
def conditionSigs : List Sig :=
  [.speedStale, .speedConflict, .boardMissed, .unknownBoard, .transitOverflow, .longBoard, .mainsLost, .levelInvalid,
    .levelSettling, .feedRequest, .feedTimeout, .airflowLow, .filterLoaded, .tableFull, .safeMode, .lineMute, .txqLost]

/-- The signals of the catalogue that can change. -/
def allSigs : List Sig :=
  List.flatten
    [all8.map Sig.pointRaised, all8.map Sig.cell, (List.finRange 16).map Sig.permit, deviceSigs, conditionSigs,
      all8.map Sig.watchRaised, all8.map Sig.watchSilent]

/-- What the blocks that follow others "in the same event" read: the catalogue, the station and process states, the feed
inhibit, the fume-span count and the watched wave. -/
structure Readable where
  signals : List Bool
  station : StationState
  process : ProcessState
  inhibit : Bool
  fume : Nat
  watched : Bool
deriving DecidableEq, Repr

/-- What the readers see in a state. -/
def readable (s : State) : Readable :=
  { signals := allSigs.map s.signal, station := s.cl.station, process := s.ib.process, inhibit := s.lu.inhibit
    fume := s.tt.fume, watched := s.watchedWave }

/-! ### Analog sources (R146) -/

/-- The value of an analog source; that of a block not in use is 0, apart from PV0 and PV1 (R146). -/
def State.analog (s : State) : Analog → Int
  | .gain0 => s.mb.gain0
  | .gain1 => s.mb.gain1
  | .pv0 => s.pvOf 0
  | .pv1 => s.pvOf 1
  | .level => if s.cl.image.level.inUse then s.lu.comp else 0
  | .airflow => if s.cl.image.extraction.inUse then s.xu.airflow else 0
  | .fanOutput => if s.cl.image.extraction.inUse then s.xu.output else 0

/-- A point's finding at a sample: present or absent (R149). -/
def found (s : State) (c : PointCfg) (p : Point) : Bool :=
  if c.isSignal then s.select c.signal
  else if c.below then
    decide (s.analog c.analog < c.threshold) || (p.memory && decide (s.analog c.analog < c.threshold + c.hysteresis))
  else
    decide (c.threshold < s.analog c.analog) || (p.memory && decide (c.threshold - c.hysteresis < s.analog c.analog))

/-! ### Arithmetic of the tracker -/

/-- Time-to-reach in tracking intervals, at effective speed `e` (R49). -/
def timeToReach (e lead x : Nat) : Nat :=
  if x ≤ lead then 0
  else if e = 0 then 65535
  else min 65535 ((x - lead + (e - 1)) / e)

/-- A record is due at a loop (R55). -/
def isDue (e : Nat) (c : LoopCfg) (r : BoardRec) : Bool :=
  decide (r.trail ≤ (c.zoneEnd : Int)) && decide (timeToReach e r.lead c.zoneStart ≤ 100 * c.lookahead)

/-- A record lies in a fume span that is used (R56). -/
def inSpan (c : SpanCfg) (r : BoardRec) : Bool :=
  c.used && decide (c.first ≤ r.lead) && decide (r.trail ≤ (c.last : Int))

/-- The distance of two positions. -/
def distance (a b : Int) : Nat := (a - b).natAbs

/-! ### Arithmetic of the heat loops -/

/-- A number clamped to a range of naturals. -/
def clampNat (hi : Nat) (x : Int) : Nat := min hi x.toNat

/-- The error e = SP - PV (R91). -/
def HeatLoop.error (l : HeatLoop) : Int := (l.sp : Int) - l.pv

/-- The proportional term, truncated toward zero (R91). -/
def proportional (kp : Nat) (e : Int) : Int := Int.tdiv (kp * e) 10

/-- The two cases in which the integral is left unchanged (R92). -/
def HeatLoop.integralHeld (l : HeatLoop) (e : Int) : Bool :=
  (decide (0 < e) && (decide (l.clamp = .high) || l.l)) || (decide (e < 0) && decide (l.clamp = .low))

/-- The integral before its clamp (R92). -/
def HeatLoop.integralSum (l : HeatLoop) (ki : Nat) (e : Int) : Int :=
  if l.integralHeld e then l.integ else l.integ + ki * e

/-- The clamp to 0-100,000 acts at this expiry (R92). -/
def HeatLoop.integralClamped (l : HeatLoop) (ki : Nat) (e : Int) : Bool :=
  !l.integralHeld e && (decide (l.integralSum ki e < 0) || decide (100000 < l.integralSum ki e))

/-- The clamp record of a raw output (R93). -/
def clampOf (raw : Int) : Clamp := if raw < 0 then .low else if 1000 < raw then .high else .unclamped

/-- Z: the error is within the deadband (R94). -/
def withinDeadband (deadband : Nat) (e : Int) : Bool := decide (e.natAbs ≤ deadband)

/-- The demand of an output (R95). -/
def demandOf (rated u : Nat) : Nat := u * rated / 1000

/-- The output that a grant allows (R96); the image check keeps Rated at 1 or more. -/
def limitedOutput (rated u g : Nat) : Nat := min u (g * 1000 / rated)

/-! ### Grants -/

/-- The sum of the demands of a class (R112). -/
def classSum (table : List DemandEntry) (cls : Nat) : Nat :=
  ((table.filter fun e => decide (e.cls = cls)).map (·.demand)).sum

/-- The share basis of a state (R112). -/
def basisOf (s : State) : ShareBasis :=
  let share := fun i => (s.ownEntry i).map fun e => OwnShare.mk e.cls e.demand
  { s0 := classSum s.bu.table 0, s1 := classSum s.bu.table 1, own0 := share 0, own1 := share 1, safe := s.safeMode }

/-- The own entry of a loop in the basis. -/
def ShareBasis.own (b : ShareBasis) (i : LoopIx) : Option OwnShare := if i = 0 then b.own0 else b.own1

/-- The grant outside safe mode (R113). -/
def sharedGrant (budget : Nat) (b : ShareBasis) (o : OwnShare) : Nat :=
  if budget ≤ b.s0 then (if o.cls = 0 then o.demand * budget / b.s0 else 0)
  else if b.s1 ≤ budget - b.s0 then o.demand
  else if o.cls = 0 then o.demand
  else o.demand * (budget - b.s0) / b.s1

/-- The grant of an own loop (R113, R117). Outside safe mode the own entry is present whenever an enabled loop asks (R115);
where it is absent all the same the answer is 0 (log 28). -/
def grantOf (c : StationCfg) (b : ShareBasis) (i : LoopIx) (lastD : Nat) : Nat :=
  if b.safe then min lastD c.safeGrant
  else
    match b.own i with
    | none => 0
    | some o => sharedGrant c.budget b o

/-- The grant is the whole demand of the own entry in the table (R96). -/
def fullGrant (entry : Option DemandEntry) (g : Nat) : Bool :=
  match entry with
  | none => false
  | some e => decide (g = e.demand)

/-! ### Arithmetic of the extraction unit -/

/-- The fan target (R137). -/
def fanTarget (c : ExtractionCfg) (count : Nat) (wave : Bool) : Nat :=
  min 1000 (c.base + c.perBoard * count + if wave then c.boost else 0)

/-- One ramp step (R139). -/
def ramp (step target output : Nat) : Nat :=
  if output ≤ target then min target (output + step) else max target (output - step)

/-! ### Contents of STATE and JOIN -/

/-- The busy set (R61). -/
def State.busySet (s : State) : BitVec 4 := setOf 4 allChans fun k => s.ac[k].busy

/-- The running set (R61). -/
def State.runningSet (s : State) : BitVec 4 := setOf 4 allChans fun k => s.ac[k].running

/-- The content of a STATE frame (R156). -/
def State.stateContent (s : State) : StateContent :=
  { raised := s.raisedSet, unacked := s.unackedSet, busy := s.busySet, running := s.runningSet
    permits := s.ib.permits, stopped := decide (s.ib.process = .stopped)
    limited0 := s.hl.loops[(0 : LoopIx)].l, limited1 := s.hl.loops[(1 : LoopIx)].l
    fault0 := s.tcOpenOf 0, fault1 := s.tcOpenOf 1
    speedStale := s.tt.stale, safeMode := s.safeMode, txqLost := s.li.txqLost, tableFull := s.bu.tableFull
    transitOverflow := s.tt.overflow }

/-- The number of addresses 1-30 in the expected set (R182). -/
def expectedSize (expected : BitVec 32) : Nat := (List.range 31).countP fun n => decide (1 ≤ n) && expected.getLsbD n

/-- The content of a JOIN frame for the station's current state (R182). -/
def State.joinContent (s : State) : JoinContent :=
  if s.cl.station = .unconfigured then
    { roles := 0, sensorPosition := 0, expectedSize := 0, fault := BitVec.ofNat 8 s.cl.fault.code
      offending := if s.cl.fault = .imageInvalid then BitVec.ofNat 8 s.cl.offending else 0 }
  else
    let img := s.cl.image
    { roles :=
        (flagByte
            [img.station.entrySource, img.station.speedSource, img.station.sensor, img.level.inUse,
              img.extraction.inUse, img.loops[(0 : LoopIx)].inUse, img.loops[(1 : LoopIx)].inUse]).setWidth 7
      sensorPosition := if img.station.sensor then BitVec.ofNat 24 img.station.sensorPosition else 0
      expectedSize := BitVec.ofNat 8 (expectedSize img.station.expected), fault := 0, offending := 0 }

/-! ### Output pins -/

/-- CHOUTn, true for high (R59). -/
def State.chout (s : State) (k : Chan) : Bool :=
  let c := s.ac[k]
  if s.cellsAct then (decide (c.st = .on) || decide (c.st = .halting)) ^^ s.cl.image.chans[k].inverted else false

/-- The period position that a loop's half-cycles are numbered by: HL0's for a ganged HL1 (R100). -/
def State.position (s : State) (i : LoopIx) : Nat :=
  if s.ganged i then s.hl.loops[(0 : LoopIx)].pos else s.hl.loops[i].pos

/-- A loop runs (R90). -/
def State.loopRuns (s : State) (i : LoopIx) : Bool := s.cl.image.loops[i].inUse && s.active && !s.hl.mainsLost

/-- HOUTi, true for high: in the half-cycles numbered 1 to n of a period that has begun (R88). -/
def State.hout (s : State) (i : LoopIx) : Bool :=
  s.loopRuns i && s.hl.begun && decide (s.position i < s.hl.loops[i].half)

/-- The permille of its cycle that FANPWM is high (R134). -/
def State.fanpwm (s : State) : Nat := s.xu.pwm

/-- A general output pin, true for high (R169). -/
def State.goutPin (s : State) (c : GoutCfg) : Bool :=
  match c.cell with
  | none => false
  | some i => s.cellsAct && (s.ib.cells[i].out ^^ c.inverted)

/-- GOUT0 (R169). -/
def State.gout0 (s : State) : Bool := s.goutPin s.cl.image.station.gout0

/-- GOUT1 (R169). -/
def State.gout1 (s : State) : Bool := s.goutPin s.cl.image.station.gout1

/-- The ALARM pin (R153). -/
def State.alarmPin (s : State) : Bool := decide (s.mb.alarm = .asserted)

/-- The STOPOUT pin (R172). -/
def State.stopPin (s : State) : Bool := decide (s.ib.stopOut ≠ .off)

end Sys2Proof.Machine
end

