-- ==== Sys2Proof/Machine/Ops.lean ====
section
/-! DEFINITION. The shared operations: the transmit queue (spec/01_the_station_line.md, R5 to R12), the channels' transitions
(spec/04_actuation_channels.md), the transit table and its evaluation (spec/02_board_transit_table.md,
spec/03_conveyor_speed_and_position_arithmetic.md), the process state, and the changes of the station state (R176 to R185). -/

namespace Sys2Proof.Machine

/-! ### The transmit queue -/

/-- The line interface accepts frames to queue (R12); the same two conditions let it start an attempt (R3). -/
def State.accepts (s : State) : Bool :=
  decide (s.li.line = .active) &&
    match s.cl.station with
    | .unconfigured | .joining | .operating => true
    | _ => false

/-- The frame is a STATE. -/
def isStateFrame : Frame → Bool
  | .state _ => true
  | _ => false

/-- A new frame takes the place of a queued one: two STATE frames, or two DEMAND frames of one loop (R9). -/
def coalesces (new old : Frame) : Bool :=
  match new, old with
  | .state _, .state _ => true
  | .demand a, .demand b => decide (a.loop = b.loop)
  | _, _ => false

/-- The entry with new content, its loss mark clear; an attempt in flight goes on with its own (R9, R11). -/
def QEntry.replace (e : QEntry) (f : Frame) : QEntry :=
  { e with frame := f, mark := false, flight := e.flight.map fun x => { x with replaced := true } }

/-- The entry with its loss marks set, where it holds STATE contents (R10). -/
def QEntry.lose (e : QEntry) : QEntry :=
  { e with
    mark := e.mark || isStateFrame e.frame
    flight := e.flight.map fun x => { x with mark := x.mark || isStateFrame x.frame } }

/-- What tells apart the frames of one rank that are queued at one moment: the loop of a DEMAND, the point of an ALARM (R8). -/
def frameNumber : Frame → Nat
  | .demand c => c.loop.toNat
  | .alarm c => c.point.val
  | _ => 0

/-- An entry stands before one queued after it: it has the higher rank, or the same rank and is older, or was queued at the same
moment, its loop or point not the higher-numbered (R8). Log 27 says which events are of one moment. -/
def QEntry.precedes (x e : QEntry) : Bool :=
  decide (x.frame.rank < e.frame.rank) ||
    (decide (x.frame.rank = e.frame.rank) &&
      (decide (x.moment < e.moment) ||
        (decide (x.moment = e.moment) && decide (frameNumber x.frame ≤ frameNumber e.frame))))

/-- Put an entry behind those that stand before it (R8). -/
def insertByRank (e : QEntry) : List QEntry → List QEntry
  | [] => [e]
  | x :: xs => if x.precedes e then x :: insertByRank e xs else e :: x :: xs

/-- The entry that R10 compares with: the most recently queued of the lowest rank under the order of R8, the one in flight left
out. -/
def lastIdle (q : List QEntry) : Option QEntry := q.reverse.find? fun e => e.flight.isNone

/-- The queue without that entry. -/
def dropLastIdle (q : List QEntry) : List QEntry := (q.reverse.eraseP fun e => e.flight.isNone).reverse

/-- Place an entry that does not coalesce (R8, R10). An evicted REPLY that a restart waits for brings the reset (R177). -/
def State.place (s : State) (e : QEntry) : State :=
  if s.li.queue.length < 16 then { s with li.queue := insertByRank e s.li.queue }
  else
    match lastIdle s.li.queue with
    | none => { s with li.queue := s.li.queue.map QEntry.lose, li.txqLost := true }
    | some v =>
      if e.frame.rank < v.frame.rank then
        { s with
          li.queue := (insertByRank e (dropLastIdle s.li.queue)).map QEntry.lose
          li.txqLost := true
          cl.resetDue := s.cl.resetDue || v.restart }
      else { s with li.queue := s.li.queue.map QEntry.lose, li.txqLost := true }

/-- Queue a frame, `restart` saying that it is the REPLY a pending restart waits for (R8 to R12, R177). -/
def State.enqueueFor (s : State) (f : Frame) (restart : Bool) : State :=
  if s.accepts then
    if s.li.queue.any fun e => coalesces f e.frame then
      { s with li.queue := s.li.queue.map fun e => if coalesces f e.frame then e.replace f else e }
    else
      s.place
        { frame := f, mark := false, attempts := 0, queuedAt := s.now.ms, moment := s.now.moment, flight := none
          restart := restart }
  else { s with cl.resetDue := s.cl.resetDue || restart }

/-- Queue a frame (R8 to R12). -/
def State.enqueue (s : State) (f : Frame) : State := s.enqueueFor f false

/-- Queue a STATE frame with its current content (R155, R156). -/
def State.enqueueState (s : State) : State := s.enqueue (.state s.stateContent)

/-- Queue a JOIN frame with the content of the station's current state (R182). -/
def State.enqueueJoin (s : State) : State := s.enqueue (.join s.joinContent)

/-- The attempt in flight. -/
def State.inFlight (s : State) : Option Flight := s.li.queue.findSome? fun e => e.flight

/-- The kind of the attempt in flight. -/
def State.flightKind (s : State) : Option Kind := s.inFlight.map fun f => f.frame.kind

/-- The entry after its attempt succeeded: it stays, with a count of 0, where it was replaced meanwhile (R5, R9). -/
def QEntry.afterSuccess (e : QEntry) : Option QEntry :=
  match e.flight with
  | none => some e
  | some f => if f.replaced then some { e with attempts := 0, flight := none } else none

/-- A STATE content that clears TXQ_LOST when it completes (R11). -/
def Flight.clearsLoss (f : Flight) : Bool :=
  match f.frame with
  | .state c => c.txqLost && !f.mark
  | _ => false

/-- The REPLY that a pending restart waits for is the frame in flight (R177). -/
def State.restartInFlight (s : State) : Bool := s.li.queue.any fun e => e.flight.isSome && e.restart

/-- The attempt in flight succeeds; its sender has sent the acknowledge slot recessive (R1, R5, R9, R11, R13). -/
def State.complete (s : State) : State :=
  { s with
    li.queue := s.li.queue.filterMap QEntry.afterSuccess
    li.discards := 0
    li.txqLost := s.li.txqLost && !(s.inFlight.any Flight.clearsLoss)
    li.ack := false
    cl.resetDue := s.cl.resetDue || s.restartInFlight }

/-- Enter MUTE (R6). -/
def State.enterMute (s : State) : State :=
  { s with li.line := .mute, li.queue := [], li.discards := 0, li.good := 0 }

/-- Leave MUTE (R7). -/
def State.leaveMute (s : State) : State :=
  { s with li.line := .active, li.discards := 0 }.enqueueJoin

/-! ### Production totals -/

/-- An increment of an 8-digit decimal total (R40). -/
def Total.incr (t : Total) : Total :=
  if t.value = 99999999 then { value := 0, rolled := true } else { t with value := t.value + 1 }

/-- Increment a total. -/
def State.countTotal (s : State) (i : Fin 5) : State :=
  { s with tt.totals := s.tt.totals.set i s.tt.totals[i].incr }

/-- The PULSES total of a channel (2.8). -/
def pulsesTotal (k : Chan) : Fin 5 := ⟨k.val + 1, by omega⟩

/-! ### Channels -/

/-- Replace a channel. -/
def State.setChan (s : State) (k : Chan) (c : Channel) : State := { s with ac := s.ac.set k c }

/-- The configuration of a channel. -/
def State.chanCfg (s : State) (k : Chan) : ChanCfg := s.cl.image.chans[k]

/-- A pulse of the channel is counted (R60, R67). -/
def State.countPulse (s : State) (k : Chan) : State :=
  (s.setChan k { s.ac[k] with pulses := min 65535 (s.ac[k].pulses + 1) }).countTotal (pulsesTotal k)

/-- The mark-present request: every record occupying the window is marked served (R53). -/
def State.markPresent (s : State) (k : Chan) : State :=
  { s with
    tt.table := s.tt.table.map fun r =>
      if occupies (s.chanCfg k) r then { r with served := r.served ||| BitVec.twoPow 4 k.val } else r }

/-- Enter ON at the end of the delay or of the off phase (R66, R68). -/
def State.enterOn (s : State) (k : Chan) : State :=
  s.setChan k
    { s.ac[k] with st := .on, timer := if (s.chanCfg k).steady then none else some (s.chanCfg k).onMs }

/-- Synchronize: begin a run (R65). -/
def State.synchronize (s : State) (k : Chan) : State :=
  let t := s.setChan k { s.ac[k] with pulses := 0, blockedMark := false }
  if (s.chanCfg k).delayMs = 0 then t.enterOn k
  else t.setChan k { t.ac[k] with st := .delay, timer := some (s.chanCfg k).delayMs }

/-- Enter ARMED, with the test for a synchronization already present (R62). -/
def State.enterArmed (s : State) (k : Chan) : State :=
  let t := s.setChan k { s.ac[k] with st := .armed, timer := none, saved := none }
  match (s.chanCfg k).mode with
  | .free => t.synchronize k
  | .board => if t.unservedPresent k then (t.markPresent k).synchronize k else t
  | .input => t
  | .off => t

/-- A steady channel is in ON, so leaving it counts its pulse (R69). -/
def State.steadyOn (s : State) (k : Chan) : Bool := decide (s.ac[k].st = .on) && (s.chanCfg k).steady

/-- A termination into a state (R70). -/
def State.terminate (s : State) (k : Chan) (cause : Cause) (st : ChanState) : State :=
  let t := if s.steadyOn k then s.countPulse k else s
  t.setChan k { t.ac[k] with st := st, timer := none, saved := none, cause := cause }

/-- The follow action for a cause is REARM (R73). -/
def rearms (c : ChanCfg) : Cause → Bool
  | .count => c.rearmCount
  | .single => c.rearmSingle
  | .window => c.rearmWindow
  | .inputEnd => c.rearmInputEnd
  | _ => false

/-- A termination from the run itself, with its follow action (R70, R73). -/
def State.endRun (s : State) (k : Chan) (cause : Cause) : State :=
  let t := s.terminate k cause .idle
  if rearms (s.chanCfg k) cause then t.enterArmed k else t

/-- Enter BLOCKED with cause PERMIT (R74, R79, R83). -/
def State.enterBlocked (s : State) (k : Chan) : State :=
  let t := s.terminate k .permit .blocked
  t.setChan k { t.ac[k] with blockedMark := s.windowOccupied k }

/-- The on time of a channel expires (R67). -/
def State.pulseEnds (s : State) (k : Chan) : State :=
  let t := s.countPulse k
  let c := s.chanCfg k
  if c.countLimit ≠ 0 ∧ t.ac[k].pulses = c.countLimit then t.endRun k .count
  else if c.period = 0 then t.endRun k .single
  else t.setChan k { t.ac[k] with st := .off, timer := some (c.periodMs - c.onMs) }

/-- A halt, as CH-HALT acts on a channel (R80). -/
def State.haltChan (s : State) (k : Chan) : State :=
  match s.ac[k].st with
  | .idle | .halting => s
  | .on =>
    if !(s.chanCfg k).steady && (s.chanCfg k).completePulse then
      s.setChan k { s.ac[k] with st := .halting, cause := .halt }
    else s.terminate k .halt .idle
  | _ => s.terminate k .halt .idle

/-- A termination with cause STOP, in any state other than IDLE (R76). -/
def State.stopChan (s : State) (k : Chan) : State :=
  if s.ac[k].st = .idle then s else s.terminate k .stop .idle

/-- The tests of a start, the ownership test apart, with the permit as it is read (R79). -/
def State.startChan (s : State) (permit : Bool) (k : Chan) : State × ResultCode :=
  if s.ib.process = .stopped then (s, .stopped)
  else if (s.chanCfg k).mode = .off ∨ s.ac[k].st ≠ .idle then (s, .refusedState)
  else if permit then (s.enterArmed k, .done)
  else (s.enterBlocked k, .done)

/-- Every channel is terminated with cause STOP (R76). -/
def State.stopChans (s : State) : State := allChans.foldl State.stopChan s

/-- The process state becomes STOPPED (R174). -/
def State.setStopped (s : State) : State := { s.stopChans with ib.process := .stopped }

/-! ### The transit table -/

/-- The station has a board sensor for sightings (R29). -/
def State.sights (s : State) : Bool := s.cl.image.station.sensor && !s.cl.image.station.entrySource

/-- The capture window in um (R29). -/
def State.capture (s : State) : Nat := 1000 * s.cl.image.station.captureWindow

/-- The record with its missed mark, where it has become missed (R35). -/
def State.markMissed (s : State) (r : BoardRec) : BoardRec :=
  { r with
    missed := r.missed ||
      (s.sights && !r.sighted && decide (s.cl.image.station.sensorPosition + s.capture < r.lead)) }

/-- The record is to be removed: its trail is past the forget position, or its lead is saturated (R36). -/
def State.passed (s : State) (r : BoardRec) : Bool :=
  decide ((s.cl.image.station.forgetPosition : Int) < r.trail) || decide (maxPosition ≤ r.lead)

/-- Remove the records that have passed, each counted in BOARDS (R36); the removal from 24 to 23 ends TRANSIT_OVERFLOW (R22). -/
def State.removePassed (s : State) : State :=
  let kept := s.tt.table.filter fun r => !s.passed r
  let gone := s.tt.table.length - kept.length
  { s with
    tt.table := kept
    tt.totals := s.tt.totals.set (0 : Fin 5) (Nat.repeat Total.incr gone s.tt.totals[(0 : Fin 5)])
    tt.overflow := s.tt.overflow && !(decide (24 ≤ s.tt.table.length) && decide (kept.length < 24)) }

/-- The channel's state lets the tracker mark boards served (R37). -/
def Channel.marksServed (c : Channel) : Bool :=
  match c.st with
  | .armed | .delay | .on | .off | .halting => true
  | _ => false

/-- A bit of a four-channel set, put to a value. -/
def putBit (b : BitVec 4) (k : Chan) (v : Bool) : BitVec 4 :=
  if v then b ||| BitVec.twoPow 4 k.val else b &&& ~~~BitVec.twoPow 4 k.val

/-- A record after the evaluation of a window: served where the window opens with it inside, or where it begins to occupy an
open window, in a state of the channel that marks (R37, R52). -/
def BoardRec.inWindow (r : BoardRec) (c : ChanCfg) (k : Chan) (marks opens : Bool) : BoardRec :=
  { r with
    served :=
      if occupies c r && marks && (opens || !r.inWin.getLsbD k.val) then r.served ||| BitVec.twoPow 4 k.val
      else r.served
    inWin := putBit r.inWin k (occupies c r) }

/-- The window open event reaches a channel (R63). -/
def State.windowOpens (s : State) (k : Chan) : State :=
  if (s.chanCfg k).mode = .board ∧ s.ac[k].st = .armed then s.synchronize k else s

/-- The channel is in DELAY, ON or OFF. -/
def Channel.inRun (c : Channel) : Bool :=
  match c.st with
  | .delay | .on | .off => true
  | _ => false

/-- The channel's window is found empty (R71). -/
def State.windowEmpty (s : State) (k : Chan) : State :=
  if (s.chanCfg k).mode = .board ∧ s.ac[k].inRun = true then s.endRun k .window else s

/-- Evaluate a channel's window (R51, R52). -/
def State.evalWindow (s : State) (k : Chan) : State :=
  let c := s.chanCfg k
  if c.mode = .off then s
  else
    let wasOpen := s.tt.windows[k].isOpen
    let count := s.tt.table.countP (occupies c)
    let isOpen := if wasOpen then decide (0 < count) else s.unservedPresent k
    let marks := s.ac[k].marksServed && isOpen
    let opens := !wasOpen && isOpen
    let t := { s with
      tt.table := s.tt.table.map fun r => r.inWindow c k marks opens
      tt.windows := s.tt.windows.set k { isOpen := isOpen, count := count } }
    if opens then t.windowOpens k else if count = 0 then t.windowEmpty k else t

/-- The due counts and the fume-span count (R55, R56). -/
def State.evalCounts (s : State) : State :=
  let due := fun (i : LoopIx) => min 3 (s.tt.table.countP (isDue s.effectiveSpeed s.cl.image.loops[i]))
  let x := s.cl.image.extraction
  { s with
    tt.due := #v[due 0, due 1]
    tt.fume := s.tt.table.countP fun r => inSpan x.span1 r || inSpan x.span2 r }

/-- Evaluate the table: missed marks, removals, windows, due counts, fume-span count (R50). -/
def State.evaluate (s : State) : State :=
  let marked := { s with tt.table := s.tt.table.map s.markMissed }
  (allChans.foldl State.evalWindow marked.removePassed).evalCounts

/-- The lead of a new record, lowered past the records that hold it; `none` below zero (R22). -/
def lowerPast : List BoardRec → Nat → Option Nat
  | [], l => some l
  | r :: rs, l =>
    if r.lead = l then
      match l with
      | 0 => none
      | l' + 1 => lowerPast rs l'
    else lowerPast rs l

/-- Put a record where its lead belongs (R21). -/
def insertRec (r : BoardRec) : List BoardRec → List BoardRec
  | [] => [r]
  | x :: xs => if r.lead < x.lead then x :: insertRec r xs else r :: x :: xs

/-- Create a record, or refuse it (R22). The tests are made in the order of log 16, the table-full test last. -/
def State.create (s : State) (r : BoardRec) : State :=
  match lowerPast s.tt.table r.lead with
  | none => s
  | some l =>
    let new := { r with lead := l }
    if maxPosition < l ∨ (s.cl.image.station.forgetPosition : Int) < new.trail then s
    else if 24 ≤ s.tt.table.length then { s with tt.overflow := true }
    else { s with tt.table := insertRec new s.tt.table }.evaluate

/-- A new record of a sighting (R30, R33, R34). -/
def newRec (id : Byte) (length lead : Nat) (origin : Origin) (sighted : Bool) : BoardRec :=
  { id := id, length := length, tag := 0, lead := lead, origin := origin, sighted := sighted, missed := false
    served := 0, inWin := 0 }

/-- A corrected lead, limited so that the record keeps its place between its neighbours (R23). -/
def limitLead (down up : Option BoardRec) (x : Nat) : Nat :=
  let top := min x maxPosition
  let below :=
    match down with
    | none => top
    | some r => if r.lead ≤ top then r.lead - 1 else top
  match up with
  | none => below
  | some r => if below ≤ r.lead then r.lead + 1 else below

/-- The record downstream of index `i`. -/
def downstream (table : List BoardRec) (i : Nat) : Option BoardRec := if i = 0 then none else table[i - 1]?

/-- Correct the record at index `i`: new lead, and the other changes of the correction; then evaluate (R23). -/
def State.correct (s : State) (i lead : Nat) (f : BoardRec → BoardRec) : State :=
  let x := limitLead (downstream s.tt.table i) s.tt.table[i + 1]? lead
  { s with tt.table := s.tt.table.modify i fun r => { f r with lead := x } }.evaluate

/-- The candidate with the least distance, the downstream one of two equally near (R29, R31, R34). -/
def nearest (candidate : BoardRec → Bool) (d : BoardRec → Nat) (table : List BoardRec) : Option (Nat × BoardRec) :=
  (table.zipIdx.filter fun x => candidate x.1).foldl
    (fun best x =>
      match best with
      | none => some (x.2, x.1)
      | some b => if d x.1 < d b.2 then some (x.2, x.1) else some b)
    none

/-- The record of a nonzero id, with its index. -/
def findId (id : Byte) (table : List BoardRec) : Option (Nat × BoardRec) :=
  (table.zipIdx.find? fun x => decide (x.1.id = id)).map fun x => (x.2, x.1)

/-! ### Station states -/

/-- Enter CONFLICT (R18, R19, R76, R153, R155, R174, R184). -/
def State.enterConflict (s : State) : State :=
  { s.setStopped with
    cl.station := .conflict, cl.joinTimer := none, li.queue := []
    mb.statusTimer := none, mb.alarm := .asserted, mb.gapTimer := none }

/-- Enter UNCONFIGURED (R183): a JOIN where the address is valid, the alarm line asserted. -/
def State.enterUnconfigured (s : State) (fault : FaultCode) (offending : Nat) : State :=
  let t := { s with
    cl.station := .unconfigured, cl.fault := fault, cl.offending := offending, cl.readTimer := none
    cl.busTimer := none, cl.retryTimer := none, li.filter := s.cl.address, mb.alarm := .asserted }
  if t.cl.address.isSome then t.enqueueJoin else t

/-- A loop takes its setpoint and enable from the accepted image (R105). -/
def HeatLoop.configured (l : HeatLoop) (c : LoopCfg) : HeatLoop :=
  { l with sp := c.defaultSp, enabled := c.inUse && c.autoEnable }

/-- Enter JOINING on the acceptance of an image (R180, R184, R105, R133). -/
def State.enterJoining (s : State) (img : Image) : State :=
  let l := fun (i : LoopIx) => s.hl.loops[i].configured img.loops[i]
  { s with
    cl.station := .joining, cl.image := img, cl.readTimer := none, cl.busTimer := none, cl.joinTimer := some 200
    cl.joinMark := false
    li.filter := s.cl.address, hl.loops := #v[l 0, l 1], lu.invalid := img.level.inUse }.enqueueJoin

/-- A read of the image is wanted: it starts, with its 100 ms, once the serial bus is free, which must be within 10 ms (R179,
log 33). -/
def State.beginRead (s : State) : State := { s with cl.readTimer := some 100, cl.busTimer := some 10 }

/-- Begin LOADING: sample the straps and begin the read, or find the address invalid (R178). -/
def State.beginLoading (s : State) : State :=
  if s.pins.straps = 0 ∨ s.pins.straps = 31 then s.enterUnconfigured .addressBad 0
  else { s with cl.address := some s.pins.straps }.beginRead

/-- Every block takes its values after reset (R176). What stands outside the part (held causes, pins) and the model's own
fields stay. -/
def State.blockReset (s : State) : State :=
  { State.reset with
    cl := { Loader.reset with heldPower := s.cl.heldPower, heldPin := s.cl.heldPin }
    pins := s.pins, now := s.now, free := s.free, pending := s.pending }

end Sys2Proof.Machine
end

