-- ==== Sys2Proof/Machine/Follow.lean ====
section
/-! DEFINITION. The readers of the catalogue, which act in the event of a change: cells (R166, R167), forcing off (R98),
permits of channels (R74, R75), the line-stop unit (R170, R171), the level unit (R122, R126, R127), the extraction unit (R135,
R137); and the end of every event, where they come to rest and the reset of a RESTART takes place (R177). -/

namespace Sys2Proof.Machine

/-! ### Cells -/

/-- The latch of a LATCH cell after its inputs (R167). -/
def latchAfter (latch a b c : Bool) : Bool := if b then false else if a && c then true else latch

/-- A cell's function value on its inputs (R166, R167). -/
def cellValue (fn : CellFn) (latch a b c : Bool) : Bool :=
  match fn with
  | .and => a && b && c
  | .or => a || b || c
  | .xor => (a ^^ b) ^^ c
  | .latch => latch

/-- Form one cell from its inputs as they stand (R165 to R167). -/
def State.formCell (s : State) (i : Ix8) : State :=
  let cfg := s.cl.image.cells[i]
  if cfg.inUse then
    let a := s.select cfg.a
    let b := s.select cfg.b
    let c := s.select cfg.c
    let latch := if cfg.fn = .latch then latchAfter s.ib.cells[i].latch a b c else s.ib.cells[i].latch
    { s with ib.cells := s.ib.cells.set i { out := cellValue cfg.fn latch a b c ^^ cfg.inverted, latch := latch } }
  else s

/-- Form the cells in index order, from the entry to JOINING on (R165, R166). -/
def State.formCells (s : State) : State := if s.cellsAct then all8.foldl State.formCell s else s

/-! ### Heat loops -/

/-- A loop forced off: output low, count, carry, C, V, L and clamp record cleared; the integral is held (R98). -/
def HeatLoop.forceOff (l : HeatLoop) : HeatLoop :=
  { l with half := 0, carry := 0, c := false, v := false, l := false, clamp := .unclamped }

/-- A running loop that is forced off (R98). -/
def State.loopFollows (s : State) (i : LoopIx) : State :=
  if s.loopRuns i && s.forcedOff i then { s with hl.loops := s.hl.loops.set i s.hl.loops[i].forceOff } else s

/-! ### Channels -/

/-- A channel's permit is false (R74). What an event does to the channel itself comes first (log 31). -/
def State.permitLost (s : State) (k : Chan) : State :=
  match s.ac[k].st with
  | .armed | .delay | .on | .off => s.enterBlocked k
  | .halting => s.setChan k { s.ac[k] with st := .idle, timer := none }
  | _ => s

/-- A channel's permit is true (R75). -/
def State.permitReturns (s : State) (k : Chan) : State :=
  if s.ac[k].st = .blocked then (s.markPresent k).enterArmed k else s

/-- The channels follow their permits, all read from one state `p` (R168, log 21). -/
def State.channelsFollow (s p : State) : State :=
  if s.operating then
    allChans.foldl (fun t k => if p.chanPermit k then t.permitReturns k else t.permitLost k) s
  else s

/-! ### Line-stop unit -/

/-- The stop output at a trigger (R172). -/
def State.driveStop (s : State) : State :=
  let width := s.cl.image.stop.stopWidth
  if width = 0 then { s with ib.stopOut := .held, ib.widthTimer := none }
  else if s.ib.stopOut = .held then s
  else { s with ib.stopOut := .pulse, ib.widthTimer := some (10 * width) }

/-- The unit triggers (R171). -/
def State.trigger (s : State) : State :=
  let t := s.setStopped.driveStop
  { t.enqueue (.stop s.stopCauses) with ib.stopUnit := .triggered, ib.triggerTimer := none }

/-- The line-stop unit follows the stop condition (R170). -/
def State.stopFollows (s : State) : State :=
  if s.active then
    match s.ib.stopUnit, s.stopCondition with
    | .waiting, true =>
      if s.cl.image.stop.triggerTime = 0 then s.trigger
      else { s with ib.stopUnit := .timing, ib.triggerTimer := some (10 * s.cl.image.stop.triggerTime) }
    | .timing, false => { s with ib.stopUnit := .waiting, ib.triggerTimer := none }
    | .triggered, false => { s with ib.stopUnit := .waiting }
    | _, _ => s
  else s

/-! ### Level unit -/

/-- The running state of the configured wave channel; none runs where it is NONE (R122). -/
def State.waveRuns (s : State) : Bool :=
  match s.cl.image.level.wave with
  | none => false
  | some k => s.ac[k].running

/-- Wave running follows its channel; a change starts the settle timer (R122, R123). A run that ends and the next that begins
within one event leave it as it was, and so does a run that begins and ends within one: no change, and no settling (log 32). -/
def State.waveFollows (s : State) : State :=
  if s.cl.image.level.inUse ∧ s.active = true ∧ s.lu.wave ≠ s.waveRuns then
    { s with lu.wave := s.waveRuns, lu.settleTimer := some (100 * s.cl.image.level.settle) }
  else s

/-- A start from the level unit on its owned channel (R85). -/
def State.ownerStart (s : State) (k : Chan) : State × ResultCode :=
  if s.operating then s.startChan (s.chanPermit k) k else (s, .refusedState)

/-- Make the start and take its result: FEEDING where it was accepted, else WAITING (R126, R128). -/
def State.feedStart (s : State) : State :=
  match ownedChanOf s.cl.image with
  | none => s
  | some k =>
    let r := s.ownerStart k
    { r.1 with lu.feeder := if r.2 = .done then .feeding else .waiting }

/-- Feeding ceases to be allowed: the level unit halts its channel and enters REST (R127). -/
def State.feedHalt (s : State) : State :=
  let t :=
    match ownedChanOf s.cl.image with
    | none => s
    | some k => s.haltChan k
  { t with lu.feeder := .rest, lu.feedTimer := none }

/-- The owned channel is IDLE. -/
def State.ownedIdle (s : State) : Bool :=
  match ownedChanOf s.cl.image with
  | none => false
  | some k => decide (s.ac[k].st = .idle)

/-- The feeder follows the allowing of feeding (R126 to R128). -/
def State.feedFollows (s : State) : State :=
  match s.lu.feeder with
  | .rest => if s.feedAllowed then { s with lu.feedTimer := some (1000 * s.cl.image.level.maxFeed) }.feedStart else s
  | .feeding => if s.feedAllowed then s else s.feedHalt
  | .waiting => if s.feedAllowed then (if s.ownedIdle then s.feedStart else s) else s.feedHalt

/-! ### Extraction unit -/

/-- The watched wave and the fan target follow their inputs (R134, R135, R137). -/
def State.extractionFollows (s : State) : State :=
  let c := s.cl.image.extraction
  if c.inUse && s.active then
    { s with xu.watched := s.watchedWave, xu.target := fanTarget c s.tt.fume s.watchedWave }
  else s

/-! ### The end of an event -/

/-- What loops, level unit and extraction unit do themselves on the changes that they follow: loops forced off, the feeder, wave
running, the fan target (R98, R122, R126 to R128, R135, R137). It comes before the cells are formed, so that a cell reads an
event together with what its own block does in it (R168, log 8). -/
def State.blocksFollow (s : State) : State :=
  ((s.loopFollows 0).loopFollows 1).feedFollows.waveFollows.extractionFollows

/-- One round of the readers, the line-stop unit apart: the blocks, the cells, the channels on their permits, and what these
changes bring in the blocks and the cells (log 8). -/
def State.round (s : State) : State :=
  let cells := s.blocksFollow.formCells
  (cells.channelsFollow cells).blocksFollow.formCells

/-- Rounds of the readers until nothing that they read changes (R166), at most so many; the line-stop unit reads its condition
where they are at rest, and the readers act on a trigger in turn (R170, log 8). -/
def settle : Nat → State → State
  | 0, s => s.stopFollows.blocksFollow.formCells
  | n + 1, s =>
    if readable s.round ≠ readable s then settle n s.round
    else if readable s.round.stopFollows ≠ readable s.round then settle n s.round.stopFollows
    else s.round.stopFollows

/-- The reset of an accepted RESTART: every block is reset, and LOADING begins at once (R176, R177). It samples the straps as they
then stand, which no command has told since the last release: a free value (R178, log 7). -/
def State.restart (s : State) : State :=
  { s.blockReset with pins.straps := Config.freeStraps s.free, free := s.free + 1 }.beginLoading

/-- The next event is of another moment, unless the clock brings it together with this one (`ModelClock.expires`, log 27). -/
def State.momentEnds (s : State) : State := { s with now.moment := s.now.moment + 1 }

/-- The end of an event that took `s` to `t`: the readers act where something they read has changed, and a reset that fell
due within the event takes place. An event that itself acts on a channel and changes its permit has done the first before the
channel reads the second (R74, R145, log 31). A wave channel that ends its run and begins the next one within an event, or
begins one and ends it, has not changed wave running (R122, log 32). The moment ends with the event (R8, log 27). -/
def finish (s t : State) : State :=
  let r := if readable s = readable t then t else settle 32 t
  (if r.cl.resetDue then r.restart else r).momentEnds

end Sys2Proof.Machine
end

