-- ==== Sys2Proof/Machine/Receive.lean ====
section
/-! DEFINITION. Taking a frame: the tests made on every frame taken (R13, R18, R7), the receive filter (R14), and the handling
of COMMAND frames with their REPLY (R15 to R17). -/

namespace Sys2Proof.Machine

/-- The station is one that tests for conflict, and the source is its own address (R18). -/
def State.conflicts (s : State) (source : Addr) : Bool :=
  (match s.cl.station with
    | .joining | .operating => true
    | _ => false) && decide (s.cl.address = some source)

/-- A frame taken in MUTE counts, where its source is not the own address; the 32nd ends MUTE, and the readers of the catalogue
act on the end of MUTE before the frame is delivered, so that its block sees all of that change (R7, R168, R175, log 36). -/
def State.countGood (s : State) (source : Addr) : State :=
  if s.li.line = .mute ∧ s.cl.address ≠ some source then
    let t := { s with li.good := s.li.good + 1 }
    if t.li.good = 32 then settle 32 t.leaveMute else t
  else s

/-- A frame from the line is taken: acknowledged, tested for conflict, counted (R2, R13). -/
def State.takeHeard (s : State) (source : Addr) : State :=
  let t := { s with li.ack := true }
  (if t.conflicts source then t.enterConflict else t).countGood source

/-- The source address is one that frames are delivered from (R14). -/
def sourceValid (source : Addr) : Bool := decide (source ≠ 0) && decide (source ≠ 31)

/-- The receive filter delivers a frame of a kind other than COMMAND to its block (R14). -/
def State.delivers (s : State) (kind : Kind) : Bool :=
  match s.cl.station with
  | .operating => true
  | .joining => decide (kind = .state) || decide (kind = .join)
  | _ => false

/-- An own frame of a kind completes and is taken by self-reception (R13): `act` is what its block does with the source
address and content. An own frame of another kind in flight, or none, is no such event (log 4). -/
def State.takeOwn (s : State) (kind : Kind) (act : State → Addr → Frame → State) : State :=
  match s.inFlight with
  | none => s
  | some f =>
    if f.frame.kind = kind then
      let t := s.complete
      if t.delivers kind then act t s.ownAddr f.frame else t
    else s

/-- A frame from the line is taken and, where the filter lets it through, acted on (R13, R14). -/
def State.takeFrom (s : State) (kind : Kind) (source : Addr) (act : State → State) : State :=
  if s.receiving then
    let t := s.takeHeard source
    if t.delivers kind && sourceValid source then act t else t
  else s

/-! ### Frames that are not delivered -/

/-- Payload length of a kind; `none` for COMMAND and REPLY, and for a code that is no kind (R188). -/
def payloadLength (kind : Nat) : Option Nat :=
  match kind with
  | 0 => some 1
  | 1 => some 1
  | 2 => some 6
  | 3 => some 4
  | 4 => some 2
  | 7 => some 5
  | 8 => some 7
  | 9 => some 7
  | _ => none

/-- The station handles COMMAND frames in this state (R14). -/
def State.commandsDelivered (s : State) : Bool := decide (s.cl.station ≠ .loading)

/-- A frame of such a header that would be delivered (R14). -/
def State.deliversRaw (s : State) (source : Addr) (f : RawFrame) : Bool :=
  sourceValid source &&
    (if f.kind.toNat = 5 then s.commandsDelivered
    else
      decide (payloadLength f.kind.toNat = some f.length) &&
        match s.cl.station with
        | .operating => true
        | .joining => decide (f.kind.toNat = 8) || decide (f.kind.toNat = 9)
        | _ => false)

/-! ### Commands -/

/-- What the line interface makes of a COMMAND (R15, R17). -/
inductive Handling where
  | act (reply : Bool)
  | answer (r : ResultCode)
  | nothing
deriving DecidableEq, Repr

/-- A command's destination is the station's own address (R15). -/
def State.addressed (s : State) (h : CmdHeader) : Bool :=
  match s.li.filter with
  | none => false
  | some a => decide (h.dest = a.setWidth 8)

/-- The handling of a well-formed COMMAND other than RESTART (R14, R15, R17). -/
def State.handling (s : State) (h : CmdHeader) : Handling :=
  if !sourceValid h.source then .nothing
  else if h.dest = broadcast then (if s.operating then .act false else .nothing)
  else if s.addressed h then
    match s.cl.station with
    | .operating => .act true
    | .unconfigured | .joining => .answer .refusedState
    | _ => .nothing
  else .nothing

/-- The data of a REPLY goes with DONE and CLAMPED alone (R186). -/
def replyData (r : ResultCode) (data : List Byte) : List Byte :=
  if r = .done ∨ r = .clamped then data else []

/-- The REPLY to a command (R15, R188). -/
def replyFrame (panel : Addr) (code : Byte) (r : ResultCode) (data : List Byte) : Frame :=
  .reply { panel := panel, code := code, result := r, data := replyData r data }

/-- What an owning block gives back: the state after it has acted, the result and the data. -/
structure Answer where
  state : State
  result : ResultCode
  data : List Byte
deriving DecidableEq, Repr

/-- A COMMAND is taken, and its block acts as `act` says (R15, R17). -/
def State.command (s : State) (h : CmdHeader) (code : Byte) (act : State → Answer) : State :=
  if s.receiving then
    let t := s.takeHeard h.source
    match t.handling h with
    | .act reply =>
      let a := act t
      if reply then a.state.enqueue (replyFrame h.source code a.result a.data) else a.state
    | .answer r => t.enqueue (replyFrame h.source code r [])
    | .nothing => t
  else s

/-- A refusal: nothing changes, and the REPLY has no data (R16). -/
def refuse (s : State) (r : ResultCode) : Answer := { state := s, result := r, data := [] }

/-- The outcome of an event that took `s` to `t`. -/
def answers (s t : State) : Host.Outcome State Fault Refusal := .next (finish s t)

end Sys2Proof.Machine
end

