-- ==== Sys2Proof/Decode.lean ====
section
/-! DEFINITION. The command that a word of the opcode table's bits spells: no row of spec/opcode_table.json gives bits (every
row's "fields" is empty), so no word spells one (log 30). And what the line's own encodings spell: the command of a COMMAND
payload (spec/12_frame_and_image_layouts.md, R189) and the row of a frame heard (R188). -/

namespace Sys2Proof

open Machine

/-- The command that `nbits` bits of value `w` spell by the table's bits: none, since no row gives bits (log 30). -/
def decodeTableWord (_nbits _w : Nat) : Option Instr := none

/-- A byte of a payload. -/
def byteAt (b : List Byte) (i : Nat) : Byte := b.getD i 0

/-- A two-byte field of a payload, most significant byte first (R186). -/
def wordAt (b : List Byte) (i : Nat) : BitVec 16 := byteAt b i ++ byteAt b (i + 1)

/-- The command of a code and its operand bytes, to the header's destination; `none` for an unknown code (R189). -/
def commandOfCode (h : CmdHeader) (code : Byte) (x : List Byte) : Option Instr :=
  if code = codeRestart then some (.restart h)
  else if code = codeTransitRead then some (.transitRead h (byteAt x 0) (byteAt x 1))
  else if code = codeTotalsRead then some (.totalsRead h (byteAt x 0))
  else if code = codeTotalsClear then some (.totalsClear h (byteAt x 0))
  else if code = codeChStart then some (.chStart h (byteAt x 0))
  else if code = codeChHalt then some (.chHalt h (byteAt x 0))
  else if code = codeChHaltSave then some (.chHaltSave h (byteAt x 0))
  else if code = codeChContinue then some (.chContinue h (byteAt x 0))
  else if code = codeChQuery then some (.chQuery h (byteAt x 0))
  else if code = codeLoopSetpoint then some (.loopSetpoint h (byteAt x 0) (wordAt x 1))
  else if code = codeLoopEnable then some (.loopEnable h (byteAt x 0))
  else if code = codeLoopDisable then some (.loopDisable h (byteAt x 0))
  else if code = codeLevelFeedReset then some (.levelFeedReset h)
  else if code = codeAlarmAck then some (.alarmAck h (byteAt x 0))
  else if code = codePermitGrant then some (.permitGrant h (wordAt x 0) (wordAt x 2))
  else if code = codePermitWithdraw then some (.permitWithdraw h (wordAt x 0))
  else if code = codePermitQuery then some (.permitQuery h (wordAt x 0))
  else if code = codeResume then some (.resume h)
  else none

/-- The command that a COMMAND payload spells: destination, code, operand bytes (R188, R189). An unknown code and a wrong length
spell UNKNOWN_COMMAND (R15). -/
def commandOf (source : Addr) (payload : List Byte) : Instr :=
  let unknown := Instr.unknownCommand source payload
  match payload with
  | dest :: code :: operands =>
    if operandLength code = some operands.length then (commandOfCode ⟨source, dest⟩ code operands).getD unknown
    else unknown
  | _ => unknown

/-- The content of an ALARM (R188). -/
def alarmOf (b : List Byte) : AlarmContent :=
  { point := Fin.ofNat 8 (u8 b 0), raised := bitAt b 0 3, trip := bitAt b 0 4 }

/-- The content of a STATE (R188). -/
def stateOf (b : List Byte) : StateContent :=
  { raised := byteAt b 0, unacked := byteAt b 1, busy := (byteAt b 2).extractLsb' 0 4
    running := (byteAt b 2).extractLsb' 4 4, permits := wordAt b 3, stopped := bitAt b 5 0, limited0 := bitAt b 5 1
    limited1 := bitAt b 5 2, fault0 := bitAt b 5 3, fault1 := bitAt b 5 4, speedStale := bitAt b 6 0
    safeMode := bitAt b 6 1, txqLost := bitAt b 6 2, tableFull := bitAt b 6 3, transitOverflow := bitAt b 6 4 }

/-- The content of a JOIN (R188). -/
def joinOf (b : List Byte) : JoinContent :=
  { roles := (byteAt b 0).setWidth 7, sensorPosition := byteAt b 1 ++ byteAt b 2 ++ byteAt b 3, expectedSize := byteAt b 4
    fault := byteAt b 5, offending := byteAt b 6 }

/-- The row of a SIGHT heard, by its edge kind (R188). -/
def sightRow (source : Addr) (b : List Byte) : Instr :=
  let field : BitVec 24 := byteAt b 1 ++ byteAt b 2 ++ byteAt b 3
  if field.msb then .peerSightTrailTaken source (byteAt b 0) (field.setWidth 23) (wordAt b 4)
  else .peerSightLeadTaken source (byteAt b 0) (field.setWidth 23) (wordAt b 4)

/-- The row of a frame of a kind other than COMMAND and REPLY that has the length of its kind (R188). -/
def contentRow (kind : Nat) (source : Addr) (b : List Byte) : Instr :=
  match kind with
  | 0 => .stopTaken (.heard source ((byteAt b 0).setWidth 3))
  | 1 => .alarmTaken (.heard source (alarmOf b))
  | 2 => sightRow source b
  | 3 => .entryTaken (.heard source ⟨byteAt b 0, wordAt b 1, byteAt b 3⟩)
  | 4 => .speedTaken (.heard source (wordAt b 0))
  | 7 => .demandTaken (.heard source ⟨byteAt b 0, byteAt b 1, byteAt b 2, wordAt b 3⟩)
  | 8 => .stateTaken (.heard source (stateOf b))
  | _ => .joinTaken (.heard source (joinOf b))

/-- The row that a good frame from another station is to the part in state `s` (R14, R15, R188). -/
def heardRow (s : State) (f : HeardFrame) : Instr :=
  let source : Addr := BitVec.ofNat 5 f.source
  let undelivered := Instr.frameTakenUndelivered (.heard source ⟨BitVec.ofNat 4 f.kind, f.bytes.length⟩)
  if !sourceValid source then undelivered
  else if f.kind = 6 then .replyTaken (.heard source ())
  else if f.kind = 5 then
    let h : CmdHeader := ⟨source, byteAt f.bytes 0⟩
    if !s.addressed h && decide (h.dest ≠ broadcast) then .commandNotAddressed h else commandOf source f.bytes
  else if payloadLength f.kind = some f.bytes.length then contentRow f.kind source f.bytes
  else undelivered

/-- The row of the levels heard from start bit to check: a frame taken, or one found bad (R2). -/
def levelsRow (s : State) (levels : List Bool) : Instr :=
  match receive levels with
  | some f => heardRow s f
  | none => .frameBad levels

end Sys2Proof
end

