-- ==== Sys2Proof/Machine/Points.lean ====
section
/-! DEFINITION. Sampling of the monitor points (spec/09_monitor_points_alarms_and_station_status.md, R148 to R150), the ALARM
frames that it queues (R152) and the alarm line at an entry to RAISED (R153, R154). -/

namespace Sys2Proof.Machine

/-- The update events of R148's table, by what is updated. -/
inductive Update where
  | loop (i : LoopIx)
  | conversion
  | level
  | extraction
  | tracking
deriving DecidableEq, Repr

/-- The update event of a signal; `none` where it has none (R148). -/
def updateOf : Sig → Option Update
  | .flag _ i => some (.loop i)
  | .tcOpen _ => some .conversion
  | .levelInvalid | .levelSettling | .feedRequest => some .level
  | .airflowLow | .filterLoaded => some .extraction
  | .boardMissed | .unknownBoard | .transitOverflow | .longBoard | .windowOccupied _ => some .tracking
  | _ => none

/-- The update event at which a point samples; `none` for the monitor timer (R148). -/
def pointUpdate (c : PointCfg) : Option Update := if c.isSignal && c.onSource then updateOf c.signal.sig else none

/-- The alarm state and count after a sample (R150). -/
def Point.sampled (p : Point) (qualification : Nat) (present : Bool) : Point :=
  match p.st, present with
  | .normal, true => { p with st := .qualifying, count := 1 }
  | .normal, false => p
  | .qualifying, true =>
    if p.count + 1 = qualification then { p with st := .raised, count := 0 } else { p with count := p.count + 1 }
  | .qualifying, false => { p with st := .normal, count := 0 }
  | .raised, true => p
  | .raised, false => { p with st := .clearedUnacked, count := 0 }
  | .raisedAcked, true => p
  | .raisedAcked, false => { p with st := .normal, count := 0 }
  | .clearedUnacked, true => { p with st := .raised, count := 0 }
  | .clearedUnacked, false => p

/-- A point after a sample in a state: its finding, its comparison memory where it is ANALOG, its alarm state (R149, R150). -/
def samplePoint (s : State) (c : PointCfg) (p : Point) : Point :=
  let present := found s c p
  let q := p.sampled c.qualification present
  if c.isSignal then q else { q with memory := present }

/-- The move from one alarm state to another queues an ALARM: with new state RAISED, with new state NORMAL, or none (R152). -/
def alarmFor (before after : PointState) : Option Bool :=
  match before, after with
  | .raised, .raised => none
  | _, .raised => some true
  | .raisedAcked, .normal => some false
  | .clearedUnacked, .normal => some false
  | _, _ => none

/-- The transmit queue holds a STATE frame. -/
def State.stateWaits (s : State) : Bool := s.li.queue.any fun e => isStateFrame e.frame

/-- Queue an ALARM for a point, and a STATE where one waits (R152). -/
def State.queueAlarm (s : State) (i : Ix8) (raised : Bool) : State :=
  let t := s.enqueue (.alarm { point := i, raised := raised, trip := s.cl.image.points[i].trip })
  if t.stateWaits then t.enqueueState else t

/-- Queue the ALARMs of the points that moved, lower-numbered first (R8, R152); among ALARMs that another event of the same moment
has queued they take their places by number too (`insertByRank`). -/
def State.queueAlarms (s : State) (before : Vector Point 8) : State :=
  all8.foldl
    (fun t i =>
      match alarmFor before[i].st s.mb.points[i].st with
      | none => t
      | some raised => t.queueAlarm i raised)
    s

/-- Some point has entered RAISED. -/
def newlyRaised (before after : Vector Point 8) : Bool :=
  all8.any fun i => decide (alarmFor before[i].st after[i].st = some true)

/-- The points after they have sampled at an event, all in the state as it stands (R148, log 9). The event is given by the
update events it is, `none` for the monitor timer's. -/
def sampledPoints (s : State) (events : List (Option Update)) : Vector Point 8 :=
  all8.foldl
    (fun (v : Vector Point 8) (i : Ix8) =>
      if s.cl.image.points[i].inUse ∧ pointUpdate s.cl.image.points[i] ∈ events then
        v.set i (samplePoint s s.cl.image.points[i] s.mb.points[i])
      else v)
    s.mb.points

/-- An entry to RAISED asserts the alarm line in OPERATING and ends a gap (R153, R154). -/
def State.raiseLine (s : State) (raised : Bool) : State :=
  if raised ∧ s.operating = true then { s with mb.alarm := .asserted, mb.gapTimer := none } else s

/-- The points sample at an event (R148 to R153). -/
def State.sample (s : State) (events : List (Option Update)) : State :=
  let after := sampledPoints s events
  let t := { s with mb.points := after }
  (t.raiseLine (newlyRaised s.mb.points after)).queueAlarms s.mb.points

end Sys2Proof.Machine
end

