-- ==== Sys2Proof/Machine/Extraction.lean ====
section
/-! DEFINITION. The event of the extraction unit (spec/08_fume_extraction.md). Its following of the watched wave and of the
fume-span count stands in Machine/Follow.lean. -/

namespace Sys2Proof.Machine

/-- The extraction unit after an expiry of its timer: airflow, ramp step, conditions (R138 to R141). -/
def ExtractionUnit.stepped (x : ExtractionUnit) (c : ExtractionCfg) (reading : Nat) : ExtractionUnit :=
  let airflow := min 2000 reading
  let output := ramp c.rampStep x.target x.output
  { x with
    airflow := airflow, output := output, timer := some 100
    low := decide (c.activeThreshold ≤ output) && decide (airflow < c.minAirflow)
    loaded := decide (output = 1000) && decide (airflow < c.clogThreshold) }

/-- The extraction timer expires (R138, R148). -/
def onExtractionTimerExpiry (reading : Nat) (s : State) : State :=
  if s.active ∧ s.cl.image.extraction.inUse = true ∧ s.xu.timer.isSome then
    { s with xu := s.xu.stepped s.cl.image.extraction reading }.sample [some .extraction]
  else s

/-- EXTRACTION_TIMER_EXPIRY (R138). -/
def execExtractionTimerExpiry (reading : Nat) (s : State) : Host.Outcome State Fault Refusal :=
  answers s (onExtractionTimerExpiry reading s)

end Sys2Proof.Machine
end

