-- ==== Sys2Proof/Machine/Heat.lean ====
section
/-! DEFINITION. The events and commands of the heat loops (spec/05_heat_loops.md): temperature conversion, mains timing, the
control computation with its demand and grant (spec/06_supply_budget_sharing.md, R112), and the loop commands. -/

namespace Sys2Proof.Machine

/-- Replace a loop. -/
def State.setLoop (s : State) (i : LoopIx) (l : HeatLoop) : State := { s with hl.loops := s.hl.loops.set i l }

/-- The configuration of a loop. -/
def State.loopCfg (s : State) (i : LoopIx) : LoopCfg := s.cl.image.loops[i]

/-! ### Temperature input -/

/-- A loop after a conversion: a raw reading of 5000 is an open sample, any other a good one (R86, R87). -/
def HeatLoop.converted (l : HeatLoop) (offset : Int) (raw : Nat) : HeatLoop :=
  if raw = 5000 then
    { l with openCnt := min 3 (l.openCnt + 1), goodCnt := 0, tcOpen := l.tcOpen || decide (3 ≤ l.openCnt + 1) }
  else
    { l with
      pv := clampNat 5000 ((raw : Int) - offset)
      goodCnt := min 3 (l.goodCnt + 1), openCnt := 0
      tcOpen := l.tcOpen && decide (l.goodCnt + 1 < 3) }

/-- One input is converted; that of a ganged HL1 is not (R86, R100). -/
def State.convert (s : State) (i : LoopIx) (raw : Nat) : State :=
  if s.ganged i then s else s.setLoop i (s.hl.loops[i].converted (s.loopCfg i).tcOffset raw)

/-- The conversions of both inputs, which begin the next 100 ms (R86). -/
def State.convertBoth (s : State) (raw0 raw1 : Nat) : State :=
  { (s.convert 0 raw0).convert 1 raw1 with hl.tcTimer := some 100 }

/-- The thermocouple inputs are converted (R86, R87, R148). -/
def onTcConversion (raw0 raw1 : Fin 5001) (s : State) : State :=
  if s.active ∧ s.hl.tcTimer.isSome then (s.convertBoth raw0.val raw1.val).sample [some .conversion] else s

/-- TC_CONVERSION (R86). -/
def execTcConversion (raw0 raw1 : Fin 5001) (s : State) : Host.Outcome State Fault Refusal :=
  answers s (onTcConversion raw0 raw1 s)

/-! ### The control period -/

/-- The output PI with feedforward, before its clamp (R93). -/
def rawOutput (p : Int) (integ ff : Nat) : Int := p + (integ / 100 : Nat) + ff

/-- A loop after steps R91 to R94: integral, output u, clamp record, flags N, Z, C, V. -/
def HeatLoop.computed (l : HeatLoop) (c : LoopCfg) (due : Nat) : HeatLoop :=
  let e := l.error
  let integ := clampNat 100000 (l.integralSum c.ki e)
  let raw := rawOutput (proportional c.kp e) integ (c.fBoard * due)
  { l with
    integ := integ, v := l.integralClamped c.ki e, u := clampNat 1000 raw, clamp := clampOf raw
    c := decide (clampOf raw ≠ .unclamped), n := decide (e < 0), z := withinDeadband c.deadband e }

/-- A loop's output under a grant, and its full-grant test (R96). -/
def HeatLoop.granted (l : HeatLoop) (c : LoopCfg) (entry : Option DemandEntry) (g : Nat) : HeatLoop :=
  if fullGrant entry g then { l with uOut := l.u, l := false }
  else { l with uOut := limitedOutput c.rated l.u g, l := true }

/-- The half-cycle count and the carry of the period that begins (R97). -/
def HeatLoop.quantised (l : HeatLoop) : HeatLoop :=
  { l with half := (l.uOut + l.carry) / 10, carry := (l.uOut + l.carry) % 10 }

/-- The reduced computation of a loop that is forced off (R98): u, u_out and n are 0, C, V and L clear. -/
def HeatLoop.reduced (l : HeatLoop) (n z : Bool) : HeatLoop :=
  { l.forceOff with u := 0, uOut := 0, n := n, z := z }

/-- A loop announces its demand D, which it holds as the last announced one (R95). -/
def State.announceDemand (s : State) (i : LoopIx) (d : Nat) : State :=
  { s with hl.loops := s.hl.loops.set i { s.hl.loops[i] with lastD := d } }.enqueue
    (.demand
      { station := s.ownAddr.setWidth 8, loop := BitVec.ofNat 8 i.val, cls := BitVec.ofNat 8 (s.loopCfg i).cls
        demand := BitVec.ofNat 16 d })

/-- The demand, the grant from a share basis, and the half-cycles of a loop whose u is formed (R95 to R97). -/
def State.share (s : State) (b : ShareBasis) (i : LoopIx) : State :=
  let c := s.loopCfg i
  let d := demandOf c.rated s.hl.loops[i].u
  let t := s.announceDemand i d
  let g := grantOf s.cl.image.station b i d
  t.setLoop i ((t.hl.loops[i].granted c (t.ownEntry i) g).quantised)

/-- A loop's own expiry: the full or the reduced computation (R91 to R98), as `off` says. -/
def State.expire (s : State) (b : ShareBasis) (off : Bool) (i : LoopIx) : State :=
  let l := s.hl.loops[i]
  let c := s.loopCfg i
  if off then
    (s.setLoop i (l.reduced (decide (l.error < 0)) (withinDeadband c.deadband l.error))).announceDemand i 0
  else (s.setLoop i (l.computed c s.tt.due[i])).share b i

/-- A ganged HL1 completes HL0's expiry (R100): it copies N and Z, and C and V where it is not itself forced off; it takes
HL0's u, which is 0 where HL0 is forced off. -/
def State.expireGanged (s : State) (b : ShareBasis) (off : Bool) : State :=
  let m := s.hl.loops[(0 : LoopIx)]
  let l := s.hl.loops[(1 : LoopIx)]
  if off then (s.setLoop 1 (l.reduced m.n m.z)).announceDemand 1 0
  else (s.setLoop 1 { l with u := m.u, n := m.n, z := m.z, c := m.c, v := m.v }).share b 1

/-- A loop's part in an expiry of the control periods, `off` saying that it is forced off (R90, R100). -/
def State.expireLoop (s : State) (b : ShareBasis) (off : Bool) (i : LoopIx) : State :=
  if (s.loopCfg i).inUse then (if s.ganged i then s.expireGanged b off else s.expire b off i) else s

/-- Some loop is in use. -/
def State.someLoop (s : State) : Bool := (s.loopCfg 0).inUse || (s.loopCfg 1).inUse

/-- The position of a loop's own control period, put to a value (R88). -/
def State.putPosition (s : State) (f : Nat → Nat) (i : LoopIx) : State :=
  if (s.loopCfg i).inUse && !s.ganged i then s.setLoop i { s.hl.loops[i] with pos := f s.hl.loops[i].pos } else s

/-- The positions of the running control periods. -/
def State.putPositions (s : State) (f : Nat → Nat) : State := (s.putPosition f 0).putPosition f 1

/-- The control periods run (R90). -/
def State.periodsRun (s : State) : Bool := s.active && !s.hl.mainsLost && s.hl.begun && s.someLoop

/-- The 100th half-cycle of a running control period has ended (R90). -/
def State.periodOver (s : State) : Bool :=
  s.periodsRun && (decide (100 ≤ s.hl.loops[(0 : LoopIx)].pos) || decide (100 ≤ s.hl.loops[(1 : LoopIx)].pos))

/-- The update events of an expiry of the control periods: those of the loops in use (R148). -/
def State.loopUpdates (s : State) : List (Option Update) :=
  (allLoops.filter fun i => (s.loopCfg i).inUse).map fun i => some (.loop i)

/-- The control periods expire: one basis, both loops, HL0 first, each forced off or not as it stands before the event
(log 21); the next periods begin (R90, R112, R148). -/
def State.periodsExpire (s : State) : State :=
  let b := basisOf s
  let t := ({ s with bu.basis := some b }.expireLoop b (s.forcedOff 0) 0).expireLoop b (s.forcedOff 1) 1
  (t.putPositions fun _ => 0).sample s.loopUpdates

/-- The control periods of the running loops expire, where a crossing has ended their 100th half-cycle; at any other half-cycle
there is no expiry (R90). -/
def onControlPeriodExpiry (s : State) : State := if s.periodOver then s.periodsExpire else s

/-- CONTROL_PERIOD_EXPIRY (R90). -/
def execControlPeriodExpiry (s : State) : Host.Outcome State Fault Refusal := answers s (onControlPeriodExpiry s)

/-! ### Mains timing -/

/-- A period that a counted crossing begins at start or after MAINS_LOST: off for its whole length (R90). -/
def HeatLoop.begin (l : HeatLoop) : HeatLoop := { l with pos := 0, half := 0 }

/-- A crossing is counted (R88 to R90). -/
def State.countCrossing (s : State) : State :=
  let t := { s with hl.zcTimer := some 50, hl.lastCrossing := some s.now.ms }
  if s.hl.mainsLost ∨ s.hl.begun = false then
    { t with
      hl.mainsLost := false, hl.begun := true
      hl.loops := #v[s.hl.loops[(0 : LoopIx)].begin, s.hl.loops[(1 : LoopIx)].begin] }
  else t.putPositions fun p => min 100 (p + 1)

/-- A crossing within 4 ms of the last counted one (R88, log 11). -/
def State.isNoise (s : State) (sinceLast : Nat) : Bool := s.hl.lastCrossing.isSome && decide (sinceLast < 4000)

/-- An expiry of the control periods that is still due from the crossing before: it is taken first, as an event of its own, by
what comes at a later moment than that crossing (R90, log 12). -/
def State.expireOverdue (s : State) : State := if s.periodOver then finish s (onControlPeriodExpiry s) else s

/-- The state in which a crossing is taken: a counted one comes after the expiry that the one before made due. -/
def State.beforeCrossing (s : State) (sinceLast : Nat) : State := if s.isNoise sinceLast then s else s.expireOverdue

/-- A rising edge on ZC, so many us after the last counted one: noise, or a counted crossing (R88). -/
def onZeroCrossing (sinceLast : Nat) (s : State) : State :=
  if s.active ∧ s.isNoise sinceLast = false then s.countCrossing else s

/-- ZERO_CROSSING (R88). -/
def execZeroCrossing (sinceLast : Nat) (s : State) : Host.Outcome State Fault Refusal :=
  answers (s.beforeCrossing sinceLast) (onZeroCrossing sinceLast (s.beforeCrossing sinceLast))

/-- A loop at MAINS_LOST (R89). -/
def HeatLoop.loseMains (l : HeatLoop) : HeatLoop :=
  { l with integ := 0, carry := 0, clamp := .unclamped, c := false, v := false, l := false, half := 0 }

/-- The state in which the zero-cross timer expires, 50 ms after the last counted crossing: the expiry that this one made due has
come first. -/
def State.beforeMainsLost (s : State) : State := if s.hl.zcTimer.isSome then s.expireOverdue else s

/-- The zero-cross timer expires: MAINS_LOST (R89). -/
def onMainsLost (s : State) : State :=
  if s.active ∧ s.hl.zcTimer.isSome then
    { s with
      hl.mainsLost := true, hl.zcTimer := none, hl.begun := false
      hl.loops := #v[s.hl.loops[(0 : LoopIx)].loseMains, s.hl.loops[(1 : LoopIx)].loseMains] }
  else s

/-- MAINS_LOST (R89). -/
def execMainsLost (s : State) : Host.Outcome State Fault Refusal := answers s.beforeMainsLost (onMainsLost s.beforeMainsLost)

/-! ### Commands -/

/-- The value lies outside a loop's setpoint range (R101). -/
def outsideRange (c : LoopCfg) (value : Nat) : Bool := decide (value < c.spMin) || decide (c.spMax < value)

/-- The setpoint that a value gives (R101). -/
def setpointOf (c : LoopCfg) (value : Nat) : Nat :=
  if value < c.spMin then c.spMin else if c.spMax < value then c.spMax else value

/-- LOOP-SETPOINT on a loop (R101). -/
def setLoopPoint (i : LoopIx) (value : Nat) (s : State) : Answer :=
  let c := s.loopCfg i
  if s.ganged i then refuse s .badOperand
  else if !c.inUse then refuse s .refusedState
  else
    { state := s.setLoop i { s.hl.loops[i] with sp := setpointOf c value }
      result := if outsideRange c value then .clamped else .done
      data := bytes16 (BitVec.ofNat 16 (setpointOf c value)) }

/-- LOOP-SETPOINT at its owner (R101). -/
def answerLoopSetpoint (loop : Byte) (value : BitVec 16) (s : State) : Answer :=
  if loop.toNat < 2 then setLoopPoint (Fin.ofNat 2 loop.toNat) value.toNat s else refuse s .badOperand

/-- LOOP_SETPOINT (R101). -/
def execLoopSetpoint (h : CmdHeader) (loop : Byte) (value : BitVec 16) (s : State) :
    Host.Outcome State Fault Refusal :=
  answers s (s.command h codeLoopSetpoint (answerLoopSetpoint loop value))

/-- A command on a set of loops: each named one is acted on by itself (R102). -/
def onLoops (set : BitVec 8) (act : State → LoopIx → State × ResultCode) (s : State) : Answer :=
  if loopSetOutOfRange set then refuse s .badOperand
  else
    let r := (loopsOf set).foldl (fun x i => ((act x.1 i).1, worse x.2 (act x.1 i).2)) (s, ResultCode.done)
    { state := r.1, result := r.2, data := [] }

/-- LOOP-ENABLE on a loop (R102). -/
def enableLoop (s : State) (i : LoopIx) : State × ResultCode :=
  if (s.loopCfg i).inUse then (s.setLoop i { s.hl.loops[i] with enabled := true }, .done) else (s, .refusedState)

/-- LOOP-ENABLE at its owner (R102). -/
def answerLoopEnable (loops : BitVec 8) (s : State) : Answer := onLoops loops enableLoop s

/-- LOOP_ENABLE (R102). -/
def execLoopEnable (h : CmdHeader) (loops : BitVec 8) (s : State) : Host.Outcome State Fault Refusal :=
  answers s (s.command h codeLoopEnable (answerLoopEnable loops))

/-- LOOP-DISABLE on a loop: it is forced off at once, and its integral becomes 0 (R98, R103). -/
def disableLoop (s : State) (i : LoopIx) : State × ResultCode :=
  if !(s.loopCfg i).inUse then (s, .refusedState)
  else if s.hl.loops[i].enabled then
    (s.setLoop i { s.hl.loops[i].forceOff with enabled := false, integ := 0 }, .done)
  else (s, .done)

/-- LOOP-DISABLE at its owner (R103). -/
def answerLoopDisable (loops : BitVec 8) (s : State) : Answer := onLoops loops disableLoop s

/-- LOOP_DISABLE (R103). -/
def execLoopDisable (h : CmdHeader) (loops : BitVec 8) (s : State) : Host.Outcome State Fault Refusal :=
  answers s (s.command h codeLoopDisable (answerLoopDisable loops))

end Sys2Proof.Machine
end

