-- ==== Sys2Proof/Machine/Level.lean ====
section
/-! DEFINITION. The events and the command of the level unit (spec/07_solder_pot_level_and_replenishment.md). Its following of
the wave channel and of the allowing of feeding stands in Machine/Follow.lean. -/

namespace Sys2Proof.Machine

/-- A sample is valid (R120). -/
def levelValid (x : Int) : Bool := decide (-500 ≤ x) && decide (x ≤ 500)

/-- The level unit after it has counted a sample toward LEVEL_INVALID (R120, R121). -/
def LevelUnit.counted (l : LevelUnit) (x : Int) : LevelUnit :=
  if levelValid x then
    if l.invalid then
      if 3 ≤ l.valid + 1 then { l with raw := x, valid := 0, invalid := false }
      else { l with raw := x, valid := l.valid + 1 }
    else { l with raw := x }
  else { l with valid := 0, invalid := true }

/-- The compensated level (R124). -/
def compensated (wave : Bool) (offset : Nat) (raw : Int) : Int :=
  if wave then max (-500) (min 500 (raw + offset)) else raw

/-- The feed request after a compensated level (R125). -/
def requestAfter (c : LevelCfg) (comp : Int) (request : Bool) : Bool :=
  if comp < c.feedOn then true else if comp < c.feedOff then request else false

/-- A sample is fresh, once it has been counted (R120). -/
def LevelUnit.fresh (l : LevelUnit) (x : Int) : Bool := levelValid x && !l.invalid && l.settleTimer.isNone

/-- A fresh sample forms the compensated level and the feed request; a fall of the request clears the inhibit (R124, R125,
R129). -/
def LevelUnit.formed (l : LevelUnit) (c : LevelCfg) : LevelUnit :=
  let comp := compensated l.wave c.waveOffset l.raw
  let request := requestAfter c comp l.request
  { l with comp := comp, request := request, inhibit := l.inhibit && (request || !l.request) }

/-- The level unit after a sample (R120). -/
def LevelUnit.sampled (l : LevelUnit) (c : LevelCfg) (x : Int) : LevelUnit :=
  let t := l.counted x
  if t.fresh x then t.formed c else t

/-- The level input is converted, which begins the next 100 ms (R120). -/
def State.convertLevel (s : State) (reading : BitVec 10) : State :=
  { s with lu := { s.lu.sampled s.cl.image.level reading.toInt with levelTimer := some 100 } }

/-- The level input is converted (R120, R148). -/
def onLevelSample (reading : BitVec 10) (s : State) : State :=
  if s.active ∧ s.cl.image.level.inUse = true ∧ s.lu.levelTimer.isSome then
    (s.convertLevel reading).sample [some .level]
  else s

/-- LEVEL_SAMPLE (R120). -/
def execLevelSample (reading : BitVec 10) (s : State) : Host.Outcome State Fault Refusal :=
  answers s (onLevelSample reading s)

/-- The settle timer expires (R123). -/
def onSettleTimerExpiry (s : State) : State :=
  if s.lu.settleTimer.isSome then { s with lu.settleTimer := none } else s

/-- SETTLE_TIMER_EXPIRY (R123). -/
def execSettleTimerExpiry (s : State) : Host.Outcome State Fault Refusal := answers s (onSettleTimerExpiry s)

/-- The feed timer expires: FEED_TIMEOUT, and feeding is no longer allowed (R127, R130). -/
def onFeedTimerExpiry (s : State) : State :=
  if s.lu.feedTimer.isSome then { s with lu.feedTimeout := true, lu.feedTimer := none } else s

/-- FEED_TIMER_EXPIRY (R130). -/
def execFeedTimerExpiry (s : State) : Host.Outcome State Fault Refusal := answers s (onFeedTimerExpiry s)

/-- The data of LEVEL-FEED-RESET (R131, R189). -/
def feedResetData (l : LevelUnit) : List Byte :=
  bytes16 (BitVec.ofInt 16 l.comp) ++ [flagByte [l.request, l.feedTimeout, l.inhibit]]

/-- LEVEL-FEED-RESET at its owner (R131). -/
def answerLevelFeedReset (s : State) : Answer :=
  if s.cl.image.level.inUse then
    { state := { s with lu.feedTimeout := false, lu.inhibit := false }, result := .done, data := feedResetData s.lu }
  else refuse s .refusedState

/-- LEVEL_FEED_RESET (R131). -/
def execLevelFeedReset (h : CmdHeader) (s : State) : Host.Outcome State Fault Refusal :=
  answers s (s.command h codeLevelFeedReset answerLevelFeedReset)

end Sys2Proof.Machine
end

