-- ==== Sys2Proof/Machine/Loading.lean ====
section
/-! DEFINITION. The events and the command of the configuration loader (spec/11_start_up_and_the_configuration_image.md): reset,
loading of the image, joining the line, RESTART. -/

namespace Sys2Proof.Machine

/-! ### Reset -/

/-- A held cause begins: every block is reset, and the part is held (R176). -/
def onReset (cause : HeldCause) (s : State) : State :=
  match cause with
  | .power => { s.blockReset with cl.heldPower := true }
  | .pin => { s.blockReset with cl.heldPin := true }

/-- RESET (R176). -/
def execReset (cause : HeldCause) (s : State) : Host.Outcome State Fault Refusal := answers s (onReset cause s)

/-- The cause is held. -/
def State.holds (s : State) (cause : HeldCause) : Bool :=
  match cause with
  | .power => s.cl.heldPower
  | .pin => s.cl.heldPin

/-- A held cause is released (R176). -/
def State.release (s : State) (cause : HeldCause) : State :=
  match cause with
  | .power => { s with cl.heldPower := false }
  | .pin => { s with cl.heldPin := false }

/-- A held cause is released, the straps standing as given; with the last one LOADING begins (R176, R178). -/
def onResetRelease (cause : HeldCause) (straps : BitVec 5) (s : State) : State :=
  if s.holds cause then
    let t := { s with pins.straps := straps }.release cause
    if t.held then t else t.beginLoading
  else s

/-- RESET_RELEASE (R176). -/
def execResetRelease (cause : HeldCause) (straps : BitVec 5) (s : State) : Host.Outcome State Fault Refusal :=
  answers s (onResetRelease cause straps s)

/-! ### RESTART -/

/-- The data of a REPLY to RESTART (R177, R189). -/
def restartData (s : State) : List Byte :=
  [BitVec.ofNat 8 s.cl.station.code, BitVec.ofNat 8 s.cl.fault.code, BitVec.ofNat 8 s.cl.offending,
    markByte s.cl.joinMark]

/-- RESTART at its owner: a REPLY is queued; the first one makes the restart pending and starts the restart timer (R177). -/
def State.acceptRestart (s : State) (panel : Addr) : State :=
  let f := replyFrame panel codeRestart .done (restartData s)
  if s.cl.restartPending then s.enqueue f
  else { s.enqueueFor f true with cl.restartPending := true, cl.restartTimer := some 100 }

/-- An addressed RESTART is taken; a broadcast one is ignored (R17, R177). -/
def onRestart (h : CmdHeader) (s : State) : State :=
  if s.receiving then
    let t := s.takeHeard h.source
    if sourceValid h.source && decide (h.dest ≠ broadcast) && t.addressed h then t.acceptRestart h.source else t
  else s

/-- RESTART (R177). -/
def execRestart (h : CmdHeader) (s : State) : Host.Outcome State Fault Refusal := answers s (onRestart h s)

/-- The restart timer expires: the reset takes place (R177). -/
def onRestartTimerExpiry (s : State) : State :=
  if s.cl.restartPending ∧ s.cl.restartTimer.isSome then { s with cl.resetDue := true } else s

/-- RESTART_TIMER_EXPIRY (R177). -/
def execRestartTimerExpiry (s : State) : Host.Outcome State Fault Refusal := answers s (onRestartTimerExpiry s)

/-! ### The image -/

/-- A read of the image is in progress, or waits for the serial bus. -/
def State.reading (s : State) : Bool := decide (s.cl.station = .loading) && s.cl.readTimer.isSome

/-- A completed read is checked, and the image accepted or refused (R180, R181, R183, R184). -/
def onImageReadComplete (bytes : List Byte) (s : State) : State :=
  if s.reading then
    match checkImage bytes with
    | .incomplete => s
    | .bad => s.enterUnconfigured .imageBad 0
    | .invalid block => s.enterUnconfigured .imageInvalid block
    | .accepted img => s.enterJoining img
  else s

/-- IMAGE_READ_COMPLETE (R180). -/
def execImageReadComplete (bytes : List Byte) (s : State) : Host.Outcome State Fault Refusal :=
  answers s (onImageReadComplete bytes s)

/-- A read of the image fails, whatever the cause; the third failure ends in LOAD_FAILED (R179). -/
def onImageReadFailed (_cause : ReadFailure) (s : State) : State :=
  if s.reading then
    let t := { s with cl.readFails := s.cl.readFails + 1, cl.readTimer := none, cl.busTimer := none }
    if t.cl.readFails < 3 then { t with cl.retryTimer := some 10 } else t.enterUnconfigured .loadFailed 0
  else s

/-- IMAGE_READ_FAILED (R179). -/
def execImageReadFailed (cause : ReadFailure) (s : State) : Host.Outcome State Fault Refusal :=
  answers s (onImageReadFailed cause s)

/-- The wait after a failed read ends: the whole image is read again (R179). -/
def onReadRetryWaitExpiry (s : State) : State :=
  if s.cl.station = .loading ∧ s.cl.retryTimer.isSome then { s with cl.retryTimer := none }.beginRead else s

/-- READ_RETRY_WAIT_EXPIRY (R179). -/
def execReadRetryWaitExpiry (s : State) : Host.Outcome State Fault Refusal := answers s (onReadRetryWaitExpiry s)

/-! ### Entry to OPERATING -/

/-- The timers that start at the entry to OPERATING (R47, R89, R116, R134, R148, R155, R161). -/
def State.startTimers (s : State) : State :=
  { s with
    tt.interval := some 10, tt.staleTimer := some 2000
    tt.speedWindow := if s.cl.image.station.speedSource then some 100 else none
    hl.zcTimer := some 50, bu.startTimer := some 3000
    xu.timer := if s.cl.image.extraction.inUse then some 100 else none
    mb.monitorTimer := some 100, mb.statusTimer := some 250, mb.graceTimer := some 1000 }

/-- The first conversions (R86, R120); the points on what they update sample it (R148, log 23). -/
def State.firstConversions (s : State) (raw0 raw1 : Nat) (level : BitVec 10) : State :=
  let t := s.convertBoth raw0 raw1
  if s.cl.image.level.inUse then (t.convertLevel level).sample [some .conversion, some .level]
  else t.sample [some .conversion]

/-- Enter OPERATING (R185): the blocks start, and the first STATE is queued (R155). -/
def State.enterOperating (s : State) (raw0 raw1 : Nat) (level : BitVec 10) : State :=
  let t := { s with cl.station := .operating, cl.joinTimer := none, cl.started := true }.startTimers
  (t.firstConversions raw0 raw1 level).enqueueState

/-- The join timer expires (R184, R185); the readings are those of the first conversions. -/
def onJoinTimerExpiry (raw0 raw1 : Fin 5001) (level : BitVec 10) (s : State) : State :=
  if s.cl.station = .joining ∧ s.cl.joinTimer.isSome then s.enterOperating raw0.val raw1.val level else s

/-- JOIN_TIMER_EXPIRY (R184). -/
def execJoinTimerExpiry (raw0 raw1 : Fin 5001) (level : BitVec 10) (s : State) : Host.Outcome State Fault Refusal :=
  answers s (onJoinTimerExpiry raw0 raw1 level s)

end Sys2Proof.Machine
end

