-- ==== Sys2Proof/Machine/Clock.lean ====
section
/-! DEFINITION. Time: what step does on an empty queue (log 2). Where timers have run out, the expiry of one of them is put into
the queue, any one of those due at the moment (log 5); else 1 ms passes, in which every running timer loses 1 ms. -/

namespace Sys2Proof.Machine

/-! ### Expiries that are due -/

/-- A timer has run out. -/
def isDueNow (t : Timer) : Bool := decide (t = some 0)

/-- The command of an expiry, where its timer has run out. -/
def dueOf (t : Timer) (c : Instr) : List Instr := if isDueNow t then [c] else []

/-- The phase expiry of a channel that is due (R66 to R68, R81). -/
def duePhase (s : State) (k : Chan) : List Instr :=
  match s.ac[k].st with
  | .delay => dueOf s.ac[k].timer (.delayExpiry k)
  | .on => dueOf s.ac[k].timer (.onTimeExpiry k)
  | .off => dueOf s.ac[k].timer (.offPhaseExpiry k)
  | .halting => dueOf s.ac[k].timer (.haltingExpiry k)
  | _ => []

/-- The tracker's expiries that are due. -/
def dueTracker (s : State) : List Instr :=
  dueOf s.tt.interval .trackingIntervalExpiry ++ dueOf s.tt.speedWindow .speedWindowExpiry ++
    dueOf s.tt.staleTimer .staleTimerExpiry ++ dueOf s.tt.sourceTimer .sourceTimerExpiry ++
    dueOf s.tt.conflictTimer .conflictTimerExpiry ++ dueOf s.tt.longTimer .longBoardTimerExpiry

/-- The expiries of the loops and the budget unit that are due; the readings of a conversion are free (log 6). -/
def dueHeat (s : State) : List Instr :=
  dueOf s.hl.tcTimer (.tcConversion (Config.freeTc s.free) (Config.freeTc (s.free + 1))) ++
    dueOf s.hl.zcTimer .mainsLost ++ (if s.periodOver then [.controlPeriodExpiry] else []) ++
    ((s.bu.table.filter fun e => decide (e.age = 0)).map fun e => .entryAgeExpiry e.station e.loop) ++
    dueOf s.bu.refusalTimer .refusalTimerExpiry ++ dueOf s.bu.startTimer .startTimerExpiry

/-- The expiries of the level and extraction units that are due; the readings are free (log 6). -/
def dueUnits (s : State) : List Instr :=
  dueOf s.lu.levelTimer (.levelSample (Config.freeLevel s.free)) ++ dueOf s.lu.settleTimer .settleTimerExpiry ++
    dueOf s.lu.feedTimer .feedTimerExpiry ++
    dueOf s.xu.timer (.extractionTimerExpiry (Config.freeAirflow s.free))

/-- The expiries of the monitor and interlock blocks that are due; the readings are free (log 6). -/
def dueMonitor (s : State) : List Instr :=
  dueOf s.mb.monitorTimer (.monitorTimerExpiry (Config.freeGain s.free) (Config.freeGain (s.free + 1))) ++
    dueOf s.mb.gapTimer .gapTimerExpiry ++ dueOf s.mb.statusTimer .statusTimerExpiry ++
    dueOf s.mb.graceTimer .graceTimerExpiry ++
    ((s.mb.peers.filter fun e => isDueNow e.silence).map fun e => .silenceTimerExpiry e.addr) ++
    dueOf s.ib.triggerTimer .triggerTimerExpiry ++ dueOf s.ib.widthTimer .widthTimerExpiry

/-- The loader's expiries that are due; a read that has run for 100 ms fails, and one that has waited 10 ms for the serial bus
(R179); the readings are free (log 6). -/
def dueLoader (s : State) : List Instr :=
  dueOf s.cl.restartTimer .restartTimerExpiry ++ dueOf s.cl.readTimer (.imageReadFailed .timeout) ++
    dueOf s.cl.busTimer (.imageReadFailed .busNotFree) ++ dueOf s.cl.retryTimer .readRetryWaitExpiry ++
    dueOf s.cl.joinTimer
      (.joinTimerExpiry (Config.freeTc s.free) (Config.freeTc (s.free + 1)) (Config.freeLevel s.free))

/-- The expiries that are due at the moment. -/
def dueList (s : State) : List Instr :=
  dueLoader s ++ dueTracker s ++ allChans.flatMap (duePhase s) ++ dueHeat s ++ dueUnits s ++ dueMonitor s

/-! ### 1 ms passes -/

/-- A timer after 1 ms. -/
def tickTimer (t : Timer) : Timer := t.map fun n => n - 1

/-- The model's clock at an expiry that it brings: of the moment of the last one, where no other event and no ms has come between
them (R8, log 27). -/
def ModelClock.expires (c : ModelClock) : ModelClock :=
  let m := if c.moment = c.expiry + 1 then c.expiry else c.moment
  { c with moment := m, expiry := m }

/-- The line interface has no timers; the tracker after 1 ms. -/
def Tracker.tick (t : Tracker) : Tracker :=
  { t with
    longTimer := tickTimer t.longTimer, speedWindow := tickTimer t.speedWindow, staleTimer := tickTimer t.staleTimer
    sourceTimer := tickTimer t.sourceTimer, conflictTimer := tickTimer t.conflictTimer
    interval := tickTimer t.interval }

/-- The budget unit after 1 ms. -/
def Budget.tick (b : Budget) : Budget :=
  { b with
    table := b.table.map fun e => { e with age := e.age - 1 }
    refusalTimer := tickTimer b.refusalTimer, startTimer := tickTimer b.startTimer }

/-- The level unit after 1 ms. -/
def LevelUnit.tick (l : LevelUnit) : LevelUnit :=
  { l with
    settleTimer := tickTimer l.settleTimer, feedTimer := tickTimer l.feedTimer, levelTimer := tickTimer l.levelTimer }

/-- The monitor block after 1 ms. -/
def Monitor.tick (m : Monitor) : Monitor :=
  { m with
    monitorTimer := tickTimer m.monitorTimer, gapTimer := tickTimer m.gapTimer, statusTimer := tickTimer m.statusTimer
    graceTimer := tickTimer m.graceTimer
    peers := m.peers.map fun e => { e with silence := tickTimer e.silence } }

/-- The loader after 1 ms. A read that waits for the serial bus starts with the ms in which the bus is free, and until then its
100 ms stand (R179, log 33). -/
def Loader.tick (c : Loader) (busFree : Bool) : Loader :=
  let waits := c.busTimer.isSome && !busFree
  { c with
    joinTimer := tickTimer c.joinTimer, restartTimer := tickTimer c.restartTimer, retryTimer := tickTimer c.retryTimer
    readTimer := if waits then c.readTimer else tickTimer c.readTimer
    busTimer := if waits then tickTimer c.busTimer else none }

/-- 1 ms passes: every running timer loses 1 ms, and a new cycle of FANPWM takes up the fan output (R134, log 24). The state of
the serial bus in it is free (log 33). -/
def State.tick (s : State) : State :=
  { s with
    now := { s.now with ms := s.now.ms + 1, moment := s.now.moment + 1 }
    free := s.free + 1, tt := s.tt.tick, bu := s.bu.tick, lu := s.lu.tick, mb := s.mb.tick
    cl := s.cl.tick (Config.busFree s.free)
    ac := s.ac.map fun c => { c with timer := tickTimer c.timer }
    hl.tcTimer := tickTimer s.hl.tcTimer, hl.zcTimer := tickTimer s.hl.zcTimer
    xu.timer := tickTimer s.xu.timer, xu.pwm := s.xu.output
    ib.triggerTimer := tickTimer s.ib.triggerTimer, ib.widthTimer := tickTimer s.ib.widthTimer }

/-- The expiry that is taken of those due: the only one, or any one (log 5). -/
def pick (due : List Instr) (free : Nat) : Option Instr :=
  match due with
  | [] => none
  | [c] => some c
  | _ => due[Config.dueOrder free % due.length]?

/-- What the part does while no command waits: put an expiry that is due into the queue, or let 1 ms pass (log 2). Each expiry
uses up free values (log 6); those that fall due in one ms are of one moment (log 27). -/
def idle (s : State) : State :=
  match pick (dueList s) s.free with
  | some c => { s with pending := [c], free := s.free + 2, now := s.now.expires }
  | none => s.tick

end Sys2Proof.Machine
end

