-- ==== Sys2Proof/Machine/Budget.lean ====
section
/-! DEFINITION. The events of the budget unit (spec/06_supply_budget_sharing.md). -/

namespace Sys2Proof.Machine

/-- The content of a DEMAND passes the checks: its address is the source's, its loop, class and demand are in range (R107). -/
def demandValid (source : Addr) (c : DemandContent) : Bool :=
  decide (c.station = source.setWidth 8) && decide (c.loop.toNat < 2) && decide (c.cls.toNat < 2) &&
    decide (c.demand.toNat ≤ 2000)

/-- The entry is of a key (R106). -/
def DemandEntry.keyed (e : DemandEntry) (station : Nat) (loop : LoopIx) : Bool :=
  decide (e.station = station) && decide (e.loop = loop)

/-- The table with the entry of a key refreshed (R108). -/
def refresh (table : List DemandEntry) (new : DemandEntry) : List DemandEntry :=
  table.map fun e => if e.keyed new.station new.loop then { e with cls := new.cls, demand := new.demand, age := 3000 } else e

/-- A DEMAND that passed the checks refreshes or creates the entry of its key, or is refused (R108, R110). -/
def State.demandApplies (s : State) (new : DemandEntry) : State :=
  if s.bu.table.any fun e => e.keyed new.station new.loop then { s with bu.table := refresh s.bu.table new }
  else if s.bu.table.length < 32 then { s with bu.table := s.bu.table ++ [new] }
  else { s with bu.tableFull := true, bu.refusalTimer := some 3000 }

/-- A DEMAND arrives at the budget unit (R107, R108). -/
def State.demandArrives (s : State) (source : Addr) (c : DemandContent) : State :=
  if demandValid source c then
    s.demandApplies
      { station := source.toNat, loop := Fin.ofNat 2 c.loop.toNat, cls := c.cls.toNat, demand := c.demand.toNat
        age := 3000 }
  else s

/-- An own DEMAND is taken by self-reception (R108). -/
def ownDemandArrives (s : State) (source : Addr) (f : Frame) : State :=
  match f with
  | .demand c => s.demandArrives source c
  | _ => s

/-- A DEMAND is taken, own or heard (R107). -/
def onDemandTaken (rx : Rx DemandContent) (s : State) : State :=
  match rx with
  | .own => s.takeOwn .demand ownDemandArrives
  | .heard source c => s.takeFrom .demand source fun t => t.demandArrives source c

/-- DEMAND_TAKEN (R108). -/
def execDemandTaken (rx : Rx DemandContent) (s : State) : Host.Outcome State Fault Refusal :=
  answers s (onDemandTaken rx s)

/-- A DEMAND has created or refreshed the entry at this very moment: its timer stands at 3 s (R108). -/
def DemandEntry.fresh (e : DemandEntry) : Bool := decide (3000 ≤ e.age)

/-- The age timer of an entry expires: the entry is removed. One that a DEMAND taken at the same moment has refreshed first
survives (R109). -/
def onEntryAgeExpiry (station : Nat) (loop : LoopIx) (s : State) : State :=
  { s with bu.table := s.bu.table.filter fun e => !e.keyed station loop || e.fresh }

/-- ENTRY_AGE_EXPIRY (R109). -/
def execEntryAgeExpiry (station : Nat) (loop : LoopIx) (s : State) : Host.Outcome State Fault Refusal :=
  answers s (onEntryAgeExpiry station loop s)

/-- The refusal timer expires (R110). -/
def onRefusalTimerExpiry (s : State) : State :=
  if s.bu.refusalTimer.isSome then { s with bu.tableFull := false, bu.refusalTimer := none } else s

/-- REFUSAL_TIMER_EXPIRY (R110). -/
def execRefusalTimerExpiry (s : State) : Host.Outcome State Fault Refusal := answers s (onRefusalTimerExpiry s)

/-- The start timer expires: the start cause of safe mode ends (R116). -/
def onStartTimerExpiry (s : State) : State :=
  if s.bu.startTimer.isSome then { s with bu.startTimer := none } else s

/-- START_TIMER_EXPIRY (R116). -/
def execStartTimerExpiry (s : State) : Host.Outcome State Fault Refusal := answers s (onStartTimerExpiry s)

end Sys2Proof.Machine
end

