-- ==== Sys2Proof/Machine/Channels.lean ====
section
/-! DEFINITION. The events and commands of the actuation channels (spec/04_actuation_channels.md) and the input pins that the
catalogue reads (R57, R145). -/

namespace Sys2Proof.Machine

/-! ### Commands -/

/-- A command on a set of channels: each named one is acted on in the same event, and the most severe result answers (R78). -/
def onChans (set : BitVec 8) (act : State → Chan → State × ResultCode) (s : State) : Answer :=
  if chanSetOutOfRange set then refuse s .badOperand
  else
    let r := (chansOf set).foldl (fun x k => ((act x.1 k).1, worse x.2 (act x.1 k).2)) (s, ResultCode.done)
    { state := r.1, result := r.2, data := [] }

/-- The channel is level-owned (R85). -/
def State.owned (s : State) (k : Chan) : Bool := (s.chanCfg k).levelOwned

/-- CH-START on a channel, the permits read from state `p` (R79, log 21). -/
def startFromLine (p s : State) (k : Chan) : State × ResultCode :=
  if s.owned k then (s, .owned) else s.startChan (p.chanPermit k) k

/-- CH-START at its owner (R78, R79). -/
def answerChStart (chans : BitVec 8) (s : State) : Answer := onChans chans (startFromLine s) s

/-- CH_START (R79). -/
def execChStart (h : CmdHeader) (chans : BitVec 8) (s : State) : Host.Outcome State Fault Refusal :=
  answers s (s.command h codeChStart (answerChStart chans))

/-- CH-HALT on a channel; on the level-owned one it sets the feed inhibit (R80, R85, R129). -/
def haltFromLine (s : State) (k : Chan) : State × ResultCode :=
  let t := s.haltChan k
  (if s.owned k then { t with lu.inhibit := true } else t, .done)

/-- CH-HALT at its owner (R78, R80). -/
def answerChHalt (chans : BitVec 8) (s : State) : Answer := onChans chans haltFromLine s

/-- CH_HALT (R80). -/
def execChHalt (h : CmdHeader) (chans : BitVec 8) (s : State) : Host.Outcome State Fault Refusal :=
  answers s (s.command h codeChHalt (answerChHalt chans))

/-- The context that CH-HALT-SAVE saves: the state left, the time left of its phase, the pulse count (R82). -/
def Channel.context (c : Channel) : Saved := { st := c.st, left := c.timer, pulses := c.pulses }

/-- CH-HALT-SAVE on a channel (R82). -/
def haltSave (s : State) (k : Chan) : State × ResultCode :=
  if s.owned k then (s, .owned)
  else
    match s.ac[k].st with
    | .armed | .delay | .on | .off =>
      (s.setChan k { s.ac[k] with st := .held, timer := none, saved := some s.ac[k].context }, .done)
    | _ => (s, .refusedState)

/-- CH-HALT-SAVE at its owner (R78, R82). -/
def answerChHaltSave (chans : BitVec 8) (s : State) : Answer := onChans chans haltSave s

/-- CH_HALT_SAVE (R82). -/
def execChHaltSave (h : CmdHeader) (chans : BitVec 8) (s : State) : Host.Outcome State Fault Refusal :=
  answers s (s.command h codeChHaltSave (answerChHaltSave chans))

/-- The saved state is DELAY, ON or OFF. -/
def Saved.inRun (c : Saved) : Bool :=
  match c.st with
  | .delay | .on | .off => true
  | _ => false

/-- A saved context is restored; an ON phase with no time left expires at once (R83), but for a steady channel, which has no on
time (R58, R69). -/
def State.restore (s : State) (k : Chan) (c : Saved) : State :=
  let t := s.setChan k { s.ac[k] with st := c.st, timer := c.left, pulses := c.pulses, saved := none }
  if c.st = .armed then t.enterArmed k
  else
    let u := if (s.chanCfg k).mode = .board then t.markPresent k else t
    if c.st = .on ∧ c.left = some 0 ∧ (s.chanCfg k).steady = false then u.pulseEnds k else u

/-- CH-CONTINUE on a HELD channel with its context (R83). -/
def State.continueHeld (s : State) (permit : Bool) (k : Chan) (c : Saved) : State :=
  if !permit then s.enterBlocked k
  else if (s.chanCfg k).mode = .board ∧ c.inRun = true ∧ s.tt.windows[k].count = 0 then s.endRun k .window
  else s.restore k c

/-- CH-CONTINUE on a channel, the permits read from state `p` (R83, log 21). A HELD channel holds a context (R82). -/
def continueFromLine (p s : State) (k : Chan) : State × ResultCode :=
  if s.owned k then (s, .owned)
  else if s.ib.process = .stopped then (s, .stopped)
  else if s.ac[k].st ≠ .held then (s, .notHeld)
  else (s.continueHeld (p.chanPermit k) k (s.ac[k].saved.getD s.ac[k].context), .done)

/-- CH-CONTINUE at its owner (R78, R83). -/
def answerChContinue (chans : BitVec 8) (s : State) : Answer := onChans chans (continueFromLine s) s

/-- CH_CONTINUE (R83). -/
def execChContinue (h : CmdHeader) (chans : BitVec 8) (s : State) : Host.Outcome State Fault Refusal :=
  answers s (s.command h codeChContinue (answerChContinue chans))

/-- The data of CH-QUERY (R84, R189). -/
def queryData (s : State) (k : Chan) : List Byte :=
  let c := s.ac[k]
  [BitVec.ofNat 8 c.st.code, BitVec.ofNat 8 c.cause.code] ++ bytes16 (BitVec.ofNat 16 c.pulses) ++
    [flagByte [s.windowOccupied k, c.blockedMark]]

/-- CH-QUERY at its owner (R84). -/
def answerChQuery (chan : Byte) (s : State) : Answer :=
  if chan.toNat < 4 then { state := s, result := .done, data := queryData s (Fin.ofNat 4 chan.toNat) }
  else refuse s .badOperand

/-- CH_QUERY (R84). -/
def execChQuery (h : CmdHeader) (chan : Byte) (s : State) : Host.Outcome State Fault Refusal :=
  answers s (s.command h codeChQuery (answerChQuery chan))

/-! ### Phase timers -/

/-- A channel is in a state with its phase timer running, so that the phase can expire (log 3). -/
def State.inPhase (s : State) (k : Chan) (st : ChanState) : Bool :=
  decide (s.ac[k].st = st) && s.ac[k].timer.isSome

/-- The delay of a channel expires (R66). -/
def onDelayExpiry (k : Chan) (s : State) : State := if s.inPhase k .delay then s.enterOn k else s

/-- DELAY_EXPIRY (R66). -/
def execDelayExpiry (k : Chan) (s : State) : Host.Outcome State Fault Refusal := answers s (onDelayExpiry k s)

/-- The on time of a channel expires (R67). -/
def onOnTimeExpiry (k : Chan) (s : State) : State := if s.inPhase k .on then s.pulseEnds k else s

/-- ON_TIME_EXPIRY (R67). -/
def execOnTimeExpiry (k : Chan) (s : State) : Host.Outcome State Fault Refusal := answers s (onOnTimeExpiry k s)

/-- The off phase of a channel expires (R68). -/
def onOffPhaseExpiry (k : Chan) (s : State) : State := if s.inPhase k .off then s.enterOn k else s

/-- OFF_PHASE_EXPIRY (R68). -/
def execOffPhaseExpiry (k : Chan) (s : State) : Host.Outcome State Fault Refusal := answers s (onOffPhaseExpiry k s)

/-- The pulse of a HALTING channel ends (R81). -/
def onHaltingExpiry (k : Chan) (s : State) : State :=
  if s.inPhase k .halting then
    let t := s.countPulse k
    t.setChan k { t.ac[k] with st := .idle, timer := none }
  else s

/-- HALTING_EXPIRY (R81). -/
def execHaltingExpiry (k : Chan) (s : State) : Host.Outcome State Fault Refusal := answers s (onHaltingExpiry k s)

/-! ### Input pins -/

/-- A request input is asserted; it synchronizes an INPUT channel that is ARMED (R64). An input already high is not asserted
anew (log 4). -/
def onChreqAssertion (k : Chan) (s : State) : State :=
  if s.pins.chreq[k] then s
  else
    let t := { s with pins.chreq := s.pins.chreq.set k true }
    if s.operating && decide ((s.chanCfg k).mode = .input) && decide (s.ac[k].st = .armed) then t.synchronize k else t

/-- CHREQ_ASSERTION (R64). -/
def execChreqAssertion (k : Chan) (s : State) : Host.Outcome State Fault Refusal := answers s (onChreqAssertion k s)

/-- An end input is asserted; it ends the run of an INPUT channel in DELAY, ON or OFF (R72). -/
def onChendAssertion (k : Chan) (s : State) : State :=
  if s.pins.chend[k] then s
  else
    let t := { s with pins.chend := s.pins.chend.set k true }
    if s.operating && decide ((s.chanCfg k).mode = .input) && s.ac[k].inRun then t.endRun k .inputEnd else t

/-- CHEND_ASSERTION (R72). -/
def execChendAssertion (k : Chan) (s : State) : Host.Outcome State Fault Refusal := answers s (onChendAssertion k s)

/-- A request or end input is released: its level changes, and nothing else (R64, R72, R145). -/
def onRequestOrEndInputRelease (isEnd : Bool) (k : Chan) (s : State) : State :=
  if isEnd then { s with pins.chend := s.pins.chend.set k false }
  else { s with pins.chreq := s.pins.chreq.set k false }

/-- REQUEST_OR_END_INPUT_RELEASE (R145). -/
def execRequestOrEndInputRelease (isEnd : Bool) (k : Chan) (s : State) : Host.Outcome State Fault Refusal :=
  answers s (onRequestOrEndInputRelease isEnd k s)

/-- A general input changes its level (R145). -/
def onGeneralInputChange (pin : Fin 2) (level : Bool) (s : State) : State :=
  { s with pins.gin := s.pins.gin.set pin level }

/-- GENERAL_INPUT_CHANGE (R145). -/
def execGeneralInputChange (pin : Fin 2) (level : Bool) (s : State) : Host.Outcome State Fault Refusal :=
  answers s (onGeneralInputChange pin level s)

end Sys2Proof.Machine
end

