-- ==== Sys2Proof/Machine/Interlocks.lean ====
section
/-! DEFINITION. The events and commands of the interlock block (spec/10_permits_interlock_cells_and_line_stop.md). The cells and
the line-stop unit's following of its condition stand in Machine/Follow.lean. -/

namespace Sys2Proof.Machine

/-! ### Operator permits -/

/-- The permits after a withdraw set and then a grant set (R163). -/
def permitsAfter (permits grant withdraw : BitVec 16) : BitVec 16 := permits &&& ~~~withdraw ||| grant

/-- A permit command at its owner: the REPLY carries the granted set as it then stands (R163). -/
def changePermits (grant withdraw : BitVec 16) (s : State) : Answer :=
  let p := permitsAfter s.ib.permits grant withdraw
  { state := { s with ib.permits := p }, result := .done, data := bytes16 p }

/-- PERMIT_GRANT (R163). -/
def execPermitGrant (h : CmdHeader) (grant withdraw : BitVec 16) (s : State) : Host.Outcome State Fault Refusal :=
  answers s (s.command h codePermitGrant (changePermits grant withdraw))

/-- PERMIT_WITHDRAW (R163). -/
def execPermitWithdraw (h : CmdHeader) (withdraw : BitVec 16) (s : State) : Host.Outcome State Fault Refusal :=
  answers s (s.command h codePermitWithdraw (changePermits 0 withdraw))

/-- Every permit of a test set is granted (R164). -/
def allGranted (permits test : BitVec 16) : Bool := decide (permits &&& test = test)

/-- PERMIT-QUERY at its owner (R164). -/
def answerPermitQuery (test : BitVec 16) (s : State) : Answer :=
  { state := s, result := .done, data := bytes16 s.ib.permits ++ [markByte (allGranted s.ib.permits test)] }

/-- PERMIT_QUERY (R164). -/
def execPermitQuery (h : CmdHeader) (test : BitVec 16) (s : State) : Host.Outcome State Fault Refusal :=
  answers s (s.command h codePermitQuery (answerPermitQuery test))

/-! ### RESUME -/

/-- The data of RESUME (R175, R189). Where there is no last stop record the source byte is 0, as R189 says; the 0 of the cause set
is the model's. DESIGN CHOICE (log 38), unsafe. -/
def resumeData (s : State) : List Byte :=
  let last := match s.ib.lastStop with
    | none => [0, 0]
    | some r => [r.source.setWidth 8, r.causes.setWidth 8]
  flagByte [decide (s.ib.process = .stopped), s.stopCondition] :: last

/-- The stop output at an accepted RESUME (R172). -/
def stopAfterResume : StopOutput → StopOutput
  | .held => .off
  | x => x

/-- RESUME at its owner: the test of the stop condition as it stands (R175), after the end of MUTE that its frame brings (log 36).
The REPLY's process state and condition are those the RESUME itself leaves, before the readers act on the change to RUN.
DESIGN CHOICE (log 39), unsafe. -/
def answerResume (s : State) : Answer :=
  if s.stopCondition then refuse s .refusedState
  else
    let t := { s with ib.process := .run, ib.stopOut := stopAfterResume s.ib.stopOut }
    { state := t, result := .done, data := resumeData t }

/-- RESUME (R175). -/
def execResume (h : CmdHeader) (s : State) : Host.Outcome State Fault Refusal :=
  answers s (s.command h codeResume answerResume)

/-! ### The line-stop unit and STOP frames -/

/-- The trigger timer expires: the unit triggers (R170, R171). -/
def onTriggerTimerExpiry (s : State) : State := if s.ib.stopUnit = .timing then s.trigger else s

/-- TRIGGER_TIMER_EXPIRY (R170). -/
def execTriggerTimerExpiry (s : State) : Host.Outcome State Fault Refusal := answers s (onTriggerTimerExpiry s)

/-- The width timer expires: a pulse of the stop output ends (R172). -/
def onWidthTimerExpiry (s : State) : State :=
  if s.ib.stopOut = .pulse then { s with ib.stopOut := .off, ib.widthTimer := none } else s

/-- WIDTH_TIMER_EXPIRY (R172). -/
def execWidthTimerExpiry (s : State) : Host.Outcome State Fault Refusal := answers s (onWidthTimerExpiry s)

/-- A STOP arrives: the process state becomes STOPPED, and the last stop record is set (R173). -/
def State.stopArrives (s : State) (source : Addr) (causes : BitVec 3) : State :=
  { s.setStopped with ib.lastStop := some { source := source, causes := causes } }

/-- An own STOP is taken by self-reception (R173). -/
def ownStopArrives (s : State) (source : Addr) (f : Frame) : State :=
  match f with
  | .stop causes => s.stopArrives source causes
  | _ => s

/-- A STOP is taken, own or heard (R173). -/
def onStopTaken (rx : Rx (BitVec 3)) (s : State) : State :=
  match rx with
  | .own => s.takeOwn .stop ownStopArrives
  | .heard source causes => s.takeFrom .stop source fun t => t.stopArrives source causes

/-- STOP_TAKEN (R173). -/
def execStopTaken (rx : Rx (BitVec 3)) (s : State) : Host.Outcome State Fault Refusal := answers s (onStopTaken rx s)

end Sys2Proof.Machine
end

