-- ==== Sys2Proof/Machine/Line.lean ====
section
/-! DEFINITION. The events of the line interface (spec/01_the_station_line.md): attempts, frames found bad, frames taken and not
delivered, COMMAND frames that are malformed or for another station, the first idle after a reset. -/

namespace Sys2Proof.Machine

/-- The station may start an attempt: idle line seen since reset, ACTIVE, a station state that sends, a frame queued, none in
flight (R2, R3). -/
def canAttempt (s : State) : Bool :=
  s.receiving && s.accepts && !s.li.queue.isEmpty && s.inFlight.isNone

/-- An entry whose attempt starts (R3). -/
def QEntry.start (e : QEntry) : QEntry := { e with flight := some { frame := e.frame, mark := e.mark, replaced := false } }

/-- The head of the queue goes into flight (R3). -/
def onAttemptStart (s : State) : State :=
  if canAttempt s then { s with li.queue := s.li.queue.modifyHead QEntry.start } else s

/-- ATTEMPT_START (R3). -/
def execAttemptStart (s : State) : Host.Outcome State Fault Refusal := answers s (onAttemptStart s)

/-- An entry whose attempt was lost in arbitration: it stays, its count unchanged (R4, R9). -/
def QEntry.yield (e : QEntry) : QEntry := { e with flight := none }

/-- The attempt in flight is lost in arbitration (R4). -/
def onLostArbitration (s : State) : State :=
  if s.inFlight.isSome then { s with li.queue := s.li.queue.map QEntry.yield } else s

/-- LOST_ARBITRATION (R4). -/
def execLostArbitration (s : State) : Host.Outcome State Fault Refusal := answers s (onLostArbitration s)

/-- An entry after a failed attempt of its own (R5). -/
def QEntry.fail (e : QEntry) : QEntry :=
  if e.flight.isSome then { e with attempts := e.attempts + 1, flight := none } else e

/-- The entry in flight fails for the fourth time (R5). -/
def QEntry.fourth (e : QEntry) : Bool := e.flight.isSome && decide (4 ≤ e.attempts + 1)

/-- The attempt in flight fails: the sender has driven no acknowledge slot (R1); at the fourth failure the frame is discarded, and
at the fourth discard the line state becomes MUTE (R5, R6, R177). -/
def onAttemptFailed (s : State) : State :=
  if s.inFlight.isSome then
    if s.li.queue.any QEntry.fourth then
      let t := { s with
        li.ack := false
        li.queue := s.li.queue.filter fun e => !e.fourth
        li.discards := s.li.discards + 1
        cl.resetDue := s.cl.resetDue || s.restartInFlight }
      if 4 ≤ t.li.discards then t.enterMute else t
    else { s with li.ack := false, li.queue := s.li.queue.map QEntry.fail }
  else s

/-- ATTEMPT_FAILED (R5). -/
def execAttemptFailed (s : State) : Host.Outcome State Fault Refusal := answers s (onAttemptFailed s)

/-- A frame found bad: the acknowledge slot is left recessive, and in MUTE the good-frame count returns to 0 (R2, R7). Levels
that make a good frame are no such event (log 4). -/
def onFrameBad (levels : List Bool) (s : State) : State :=
  if s.receiving && !frameGood levels then
    { s with li.ack := false, li.good := if s.li.line = .mute then 0 else s.li.good }
  else s

/-- FRAME_BAD (R2). -/
def execFrameBad (levels : List Bool) (s : State) : Host.Outcome State Fault Refusal :=
  answers s (onFrameBad levels s)

/-- An own frame completes in a station state that delivers it to no block (R13, R14). -/
def ownUndelivered (s : State) : State :=
  match s.flightKind with
  | none => s
  | some k => if s.delivers k && decide (k ≠ .reply) then s else s.complete

/-- A frame is taken and not delivered (R14): an own one, or one heard. -/
def onFrameTakenUndelivered (rx : Rx RawFrame) (s : State) : State :=
  match rx with
  | .own => ownUndelivered s
  | .heard source f =>
    if s.receiving && !(s.takeHeard source).deliversRaw source f then s.takeHeard source else s

/-- FRAME_TAKEN_UNDELIVERED (R14). -/
def execFrameTakenUndelivered (rx : Rx RawFrame) (s : State) : Host.Outcome State Fault Refusal :=
  answers s (onFrameTakenUndelivered rx s)

/-- A REPLY is taken: no block receives it (R14); the completion of an own one may bring the reset of a RESTART (R177). -/
def onReplyTaken (rx : Rx Unit) (s : State) : State :=
  match rx with
  | .own => if s.flightKind = some .reply then s.complete else s
  | .heard source _ => if s.receiving then s.takeHeard source else s

/-- REPLY_TAKEN (R14). -/
def execReplyTaken (rx : Rx Unit) (s : State) : Host.Outcome State Fault Refusal := answers s (onReplyTaken rx s)

/-- A COMMAND for another destination is taken and not delivered (R15). -/
def onCommandNotAddressed (h : CmdHeader) (s : State) : State :=
  if s.receiving && !(s.addressed h || decide (h.dest = broadcast)) then s.takeHeard h.source else s

/-- COMMAND_NOT_ADDRESSED (R15). -/
def execCommandNotAddressed (h : CmdHeader) (s : State) : Host.Outcome State Fault Refusal :=
  answers s (onCommandNotAddressed h s)

/-- The command code that a REPLY to a malformed COMMAND answers; a payload too short to hold one leaves it free (log 14). -/
def answeredCode (payload : List Byte) : Byte := payload.getD 1 Config.missingCode

/-- A malformed COMMAND: an addressed one is answered BAD-OPERAND with no data, a broadcast one ignored (R15, R17). One whose
source is 0 or 31 is not answered (R14). DEDUCED (log 37), unsafe. -/
def onUnknownCommand (source : Addr) (payload : List Byte) (s : State) : State :=
  if s.receiving && malformedCommand payload then
    let t := s.takeHeard source
    let h : CmdHeader := { source := source, dest := payload.getD 0 0 }
    if sourceValid source && t.addressed h && decide (t.cl.station ≠ .conflict) then
      t.enqueue (replyFrame source (answeredCode payload) .badOperand [])
    else t
  else s

/-- UNKNOWN_COMMAND (R15). -/
def execUnknownCommand (source : Addr) (payload : List Byte) (s : State) : Host.Outcome State Fault Refusal :=
  answers s (onUnknownCommand source payload s)

/-- The idle of 11 recessive bit times that the line interface awaits after a reset (R2). -/
def onFirstIdleAfterReset (s : State) : State := if s.held then s else { s with li.synced := true }

/-- FIRST_IDLE_AFTER_RESET (R2). -/
def execFirstIdleAfterReset (s : State) : Host.Outcome State Fault Refusal := answers s (onFirstIdleAfterReset s)

end Sys2Proof.Machine
end

