-- ==== Sys2Proof/Machine/Monitor.lean ====
section
/-! DEFINITION. The events and the command of the monitor block (spec/09_monitor_points_alarms_and_station_status.md). -/

namespace Sys2Proof.Machine

/-! ### Timers -/

/-- The monitor timer expires: GAIN0 and GAIN1 are converted, then the points sample (R146, R148). -/
def onMonitorTimerExpiry (gain0 gain1 : Fin 1001) (s : State) : State :=
  if s.active ∧ s.mb.monitorTimer.isSome then
    { s with mb.gain0 := gain0.val, mb.gain1 := gain1.val, mb.monitorTimer := some 100 }.sample [none]
  else s

/-- MONITOR_TIMER_EXPIRY (R148). -/
def execMonitorTimerExpiry (gain0 gain1 : Fin 1001) (s : State) : Host.Outcome State Fault Refusal :=
  answers s (onMonitorTimerExpiry gain0 gain1 s)

/-- The gap timer expires (R154). -/
def onGapTimerExpiry (s : State) : State :=
  if s.mb.alarm = .gap then
    { s with mb.alarm := if s.anyAlarmed then .asserted else .deasserted, mb.gapTimer := none }
  else s

/-- GAP_TIMER_EXPIRY (R154). -/
def execGapTimerExpiry (s : State) : Host.Outcome State Fault Refusal := answers s (onGapTimerExpiry s)

/-- The status timer expires in OPERATING: a STATE is queued (R155). -/
def onStatusTimerExpiry (s : State) : State :=
  if s.operating ∧ s.mb.statusTimer.isSome then { s with mb.statusTimer := some 250 }.enqueueState else s

/-- STATUS_TIMER_EXPIRY (R155). -/
def execStatusTimerExpiry (s : State) : Host.Outcome State Fault Refusal := answers s (onStatusTimerExpiry s)

/-- The grace timer expires (R161). -/
def onGraceTimerExpiry (s : State) : State :=
  if s.mb.graceTimer.isSome then { s with mb.graceTimer := none, mb.graceExpired := true } else s

/-- GRACE_TIMER_EXPIRY (R161). -/
def execGraceTimerExpiry (s : State) : Host.Outcome State Fault Refusal := answers s (onGraceTimerExpiry s)

/-! ### The peer view table -/

/-- Put the entry of its address into the table. -/
def putPeer (peers : List PeerEntry) (e : PeerEntry) : List PeerEntry :=
  if peers.any fun x => decide (x.addr = e.addr) then peers.map fun x => if x.addr = e.addr then e else x
  else peers ++ [e]

/-- A STATE arrives from an address (R157). -/
def State.stateArrives (s : State) (source : Addr) (c : StateContent) : State :=
  { s with
    mb.peers :=
      putPeer s.mb.peers
        { addr := source, stateSeen := true, raised := c.raised, running := c.running, silence := some 1000
          silent := false } }

/-- An own STATE is taken by self-reception (R157). -/
def ownStateArrives (s : State) (source : Addr) (f : Frame) : State :=
  match f with
  | .state c => s.stateArrives source c
  | _ => s

/-- A STATE is taken, own or heard (R157). -/
def onStateTaken (rx : Rx StateContent) (s : State) : State :=
  match rx with
  | .own => s.takeOwn .state ownStateArrives
  | .heard source c => s.takeFrom .state source fun t => t.stateArrives source c

/-- STATE_TAKEN (R157). -/
def execStateTaken (rx : Rx StateContent) (s : State) : Host.Outcome State Fault Refusal :=
  answers s (onStateTaken rx s)

/-- A JOIN arrives from an address: an absent entry becomes present (R157). -/
def State.joinArrives (s : State) (source : Addr) : State :=
  if (s.peer source).isSome then s
  else
    { s with
      mb.peers :=
        s.mb.peers ++
          [{ addr := source, stateSeen := false, raised := 0, running := 0, silence := some 1000, silent := false }] }

/-- An own JOIN is taken by self-reception: in JOINING it sets the join mark (R157, R184). -/
def ownJoinArrives (s : State) (source : Addr) (_ : Frame) : State :=
  let t := s.joinArrives source
  if s.cl.station = .joining then { t with cl.joinMark := true } else t

/-- A JOIN is taken, own or heard (R157, R184). -/
def onJoinTaken (rx : Rx JoinContent) (s : State) : State :=
  match rx with
  | .own => s.takeOwn .join ownJoinArrives
  | .heard source _ => s.takeFrom .join source fun t => t.joinArrives source

/-- JOIN_TAKEN (R157). -/
def execJoinTaken (rx : Rx JoinContent) (s : State) : Host.Outcome State Fault Refusal := answers s (onJoinTaken rx s)

/-- A raised set with a point added or removed (R158). -/
def raisedAfter (raised : BitVec 8) (c : AlarmContent) : BitVec 8 :=
  if c.raised then raised ||| BitVec.twoPow 8 c.point.val else raised &&& ~~~BitVec.twoPow 8 c.point.val

/-- An ALARM arrives from an address: a present entry's raised set follows (R158). -/
def State.alarmArrives (s : State) (source : Addr) (c : AlarmContent) : State :=
  { s with
    mb.peers := s.mb.peers.map fun e => if e.addr = source then { e with raised := raisedAfter e.raised c } else e }

/-- An own ALARM is taken by self-reception (R158). -/
def ownAlarmArrives (s : State) (source : Addr) (f : Frame) : State :=
  match f with
  | .alarm c => s.alarmArrives source c
  | _ => s

/-- An ALARM is taken, own or heard (R158). -/
def onAlarmTaken (rx : Rx AlarmContent) (s : State) : State :=
  match rx with
  | .own => s.takeOwn .alarm ownAlarmArrives
  | .heard source c => s.takeFrom .alarm source fun t => t.alarmArrives source c

/-- ALARM_TAKEN (R158). -/
def execAlarmTaken (rx : Rx AlarmContent) (s : State) : Host.Outcome State Fault Refusal :=
  answers s (onAlarmTaken rx s)

/-- An entry whose silence timer expires (R159). -/
def PeerEntry.fallSilent (e : PeerEntry) (a : Addr) : PeerEntry :=
  if e.addr = a ∧ e.silence.isSome then { e with silence := none, silent := true } else e

/-- The silence timer of an entry expires (R159). -/
def onSilenceTimerExpiry (station : Addr) (s : State) : State :=
  { s with mb.peers := s.mb.peers.map fun e => e.fallSilent station }

/-- SILENCE_TIMER_EXPIRY (R159). -/
def execSilenceTimerExpiry (station : Addr) (s : State) : Host.Outcome State Fault Refusal :=
  answers s (onSilenceTimerExpiry station s)

/-! ### ALARM-ACK -/

/-- A point after its acknowledgement (R151). -/
def Point.acked (p : Point) : Point :=
  match p.st with
  | .raised => { p with st := .raisedAcked, count := 0 }
  | .clearedUnacked => { p with st := .normal, count := 0 }
  | _ => p

/-- The points after an acknowledgement of a set; a point not in use does not change (R147, R151). -/
def ackPoints (s : State) (points : BitVec 8) : Vector Point 8 :=
  s.mb.points.mapIdx fun i p => if points.getLsbD i then p.acked else p

/-- The alarm line after an acknowledgement in OPERATING, `took` saying that it took a point out of RAISED or CLEARED-UNACKED
(R153, R154). -/
def State.ackLine (s : State) (took : Bool) : State :=
  if !took ∨ s.mb.alarm = .gap then s
  else if s.anyAlarmed then { s with mb.alarm := .gap, mb.gapTimer := some 50 }
  else { s with mb.alarm := .deasserted }

/-- ALARM-ACK at its owner (R151 to R154). -/
def answerAlarmAck (points : BitVec 8) (s : State) : Answer :=
  let took := decide (s.unackedSet &&& points ≠ 0)
  let t := ({ s with mb.points := ackPoints s points }.ackLine took).queueAlarms s.mb.points
  { state := t, result := .done, data := [t.raisedSet, t.unackedSet] }

/-- ALARM_ACK (R151). -/
def execAlarmAck (h : CmdHeader) (points : BitVec 8) (s : State) : Host.Outcome State Fault Refusal :=
  answers s (s.command h codeAlarmAck (answerAlarmAck points))

end Sys2Proof.Machine
end

