-- ==== Sys2Proof/Machine/Transit.lean ====
section
/-! DEFINITION. The transit tracker's events and commands (spec/02_board_transit_table.md,
spec/03_conveyor_speed_and_position_arithmetic.md). -/

namespace Sys2Proof.Machine

/-! ### Reading the table and the totals -/

/-- Byte 0 of TRANSIT-READ data (R189). -/
def transitHead (records lengthHigh : Nat) (absent : Bool) : Byte :=
  BitVec.ofNat 8 (records + 32 * lengthHigh + 128 * absent.toNat)

/-- The POSITION data of a record (R39, R189). -/
def positionData (records : Nat) (r : BoardRec) : List Byte :=
  [transitHead records (r.length / 256) false, r.id, BitVec.ofNat 8 r.length] ++ bytes24 (BitVec.ofNat 24 r.lead)

/-- The MARKS data of a record (R39, R189). -/
def marksData (records : Nat) (r : BoardRec) : List Byte :=
  [transitHead records 0 false, r.id,
    BitVec.ofNat 8 (r.tag.toNat + 8 * r.origin.code + 32 * r.sighted.toNat + 64 * r.missed.toNat),
    r.served.setWidth 8]

/-- The data of TRANSIT-READ; an absent record gives the number of records and the record-absent mark alone (R39, R189). -/
def transitData (table : List BoardRec) (index : Nat) (marks : Bool) : List Byte :=
  match table[index]?, marks with
  | some r, false => positionData table.length r
  | some r, true => marksData table.length r
  | none, false => [transitHead table.length 0 true, 0, 0, 0, 0, 0]
  | none, true => [transitHead table.length 0 true, 0, 0, 0]

/-- TRANSIT-READ at its owner (R39). -/
def answerTransitRead (index part : Byte) (s : State) : Answer :=
  if 24 ≤ index.toNat ∨ 2 ≤ part.toNat then refuse s .badOperand
  else { state := s, result := .done, data := transitData s.tt.table index.toNat (decide (part = 1)) }

/-- TRANSIT_READ (R39). -/
def execTransitRead (h : CmdHeader) (index part : Byte) (s : State) : Host.Outcome State Fault Refusal :=
  answers s (s.command h codeTransitRead (answerTransitRead index part))

/-- TOTALS-READ at its owner (R41). -/
def answerTotalsRead (counter : Byte) (s : State) : Answer :=
  if hc : counter.toNat < 5 then
    let t := s.tt.totals[counter.toNat]
    { state := s, result := .done, data := bcdBytes t.value ++ [markByte t.rolled] }
  else refuse s .badOperand

/-- TOTALS_READ (R41). -/
def execTotalsRead (h : CmdHeader) (counter : Byte) (s : State) : Host.Outcome State Fault Refusal :=
  answers s (s.command h codeTotalsRead (answerTotalsRead counter))

/-- The totals with those of a counter set cleared (R42). -/
def clearTotals (counters : BitVec 8) (totals : Vector Total 5) : Vector Total 5 :=
  totals.mapIdx fun i t => if counters.getLsbD i then Total.zero else t

/-- TOTALS-CLEAR at its owner (R42). -/
def answerTotalsClear (counters : BitVec 8) (s : State) : Answer :=
  if counterSetOutOfRange counters then refuse s .badOperand
  else { state := { s with tt.totals := clearTotals counters s.tt.totals }, result := .done, data := [] }

/-- TOTALS_CLEAR (R42). -/
def execTotalsClear (h : CmdHeader) (counters : BitVec 8) (s : State) : Host.Outcome State Fault Refusal :=
  answers s (s.command h codeTotalsClear (answerTotalsClear counters))

/-! ### Entry measurement -/

/-- The station is entry-source (R25). -/
def State.entrySource (s : State) : Bool := s.cl.image.station.entrySource

/-- A leading edge of the board sensor at the entry-source station (R25). A covered sensor gives none (log 4). -/
def onEntryLeadingEdge (tag : BitVec 3) (s : State) : State :=
  if s.pins.bsens then s
  else
    let t := { s with pins.bsens := true }
    if s.active && s.entrySource then { t with tt.entryActive := true, tt.entryAcc := 0, tt.entryTag := tag } else t

/-- ENTRY_LEADING_EDGE (R25). -/
def execEntryLeadingEdge (tag : BitVec 3) (s : State) : Host.Outcome State Fault Refusal :=
  answers s (onEntryLeadingEdge tag s)

/-- The board id after one (R27). -/
def idAfter (id : Nat) : Nat := if id = 255 then 1 else id + 1

/-- Announce a board of a length: assign the next board id, queue an ENTRY (R27). -/
def State.announce (s : State) (length : Nat) : State :=
  { s with tt.nextId := idAfter s.tt.nextId }.enqueue
    (.entry
      { id := BitVec.ofNat 8 s.tt.nextId, length := BitVec.ofNat 16 length, tag := s.tt.entryTag.setWidth 8 })

/-- A trailing edge of the board sensor at the entry-source station (R26). -/
def onEntryTrailingEdge (s : State) : State :=
  if s.pins.bsens then
    let t := { s with pins.bsens := false }
    if s.active && s.entrySource && s.tt.entryActive then
      let length := s.tt.entryAcc / 1000
      let u := { t with tt.entryActive := false }
      if length < 10 then u
      else if length ≤ 650 then u.announce length
      else { u with tt.longBoard := true, tt.longTimer := some 5000 }.announce 650
    else t
  else s

/-- ENTRY_TRAILING_EDGE (R26). -/
def execEntryTrailingEdge (s : State) : Host.Outcome State Fault Refusal := answers s (onEntryTrailingEdge s)

/-- The LONG_BOARD timer expires (R26). -/
def onLongBoardTimerExpiry (s : State) : State :=
  if s.tt.longTimer.isSome then { s with tt.longBoard := false, tt.longTimer := none } else s

/-- LONG_BOARD_TIMER_EXPIRY (R26). -/
def execLongBoardTimerExpiry (s : State) : Host.Outcome State Fault Refusal := answers s (onLongBoardTimerExpiry s)

/-- The profile tag of an ENTRY's byte: one above 7 leaves it free (log 15). -/
def tagOf (tag : Byte) : BitVec 3 := if tag.toNat < 8 then tag.setWidth 3 else Config.wideTag tag

/-- Remove the record of an id; not counted in BOARDS, and the removal from 24 to 23 ends TRANSIT_OVERFLOW (R22, R28). -/
def State.removeId (s : State) (id : Byte) : State :=
  if s.tt.table.any fun r => decide (r.id = id) then
    { s with
      tt.table := s.tt.table.filter fun r => decide (r.id ≠ id)
      tt.overflow := s.tt.overflow && !decide (s.tt.table.length = 24) }.evaluate
  else s

/-- An ENTRY is taken (R28). -/
def State.entryArrives (s : State) (c : EntryContent) : State :=
  let length := c.length.toNat
  if c.id = 0 ∨ length < 10 ∨ 650 < length then s
  else
    (s.removeId c.id).create
      { id := c.id, length := length, tag := tagOf c.tag, lead := 1000 * length, origin := .entry, sighted := false
        missed := false, served := 0, inWin := 0 }

/-- An own ENTRY is taken by self-reception (R28). -/
def ownEntryArrives (s : State) (_ : Addr) (f : Frame) : State :=
  match f with
  | .entry c => s.entryArrives c
  | _ => s

/-- An ENTRY is taken, own or heard (R28). -/
def onEntryTaken (rx : Rx EntryContent) (s : State) : State :=
  match rx with
  | .own => s.takeOwn .entry ownEntryArrives
  | .heard source c => s.takeFrom .entry source fun t => t.entryArrives c

/-- ENTRY_TAKEN (R28). -/
def execEntryTaken (rx : Rx EntryContent) (s : State) : Host.Outcome State Fault Refusal :=
  answers s (onEntryTaken rx s)

/-! ### Sightings -/

/-- The position of the own sensor. -/
def State.sensor (s : State) : Nat := s.cl.image.station.sensorPosition

/-- A candidate for a leading edge (R29). -/
def State.leadCandidate (s : State) (r : BoardRec) : Bool :=
  !r.sighted && !r.missed && decide (distance r.lead s.sensor ≤ s.capture)

/-- Queue a SIGHT at the own sensor (R29 to R31). -/
def State.report (s : State) (id : Byte) (trail : Bool) (measured : Nat) : State :=
  s.enqueue
    (.sight
      { id := id, trail := trail, position := BitVec.ofNat 23 s.sensor, measured := BitVec.ofNat 16 measured })

/-- The leading edge matches a record, or none (R29, R30). -/
def State.sightLead (s : State) : State :=
  match nearest s.leadCandidate (fun r => distance r.lead s.sensor) s.tt.table with
  | none => s.report 0 false 0
  | some m => (s.correct m.1 s.sensor fun r => { r with sighted := true }).report m.2.id false 0

/-- A leading edge of the own sensor (R29, R30). -/
def onSightLeadingEdge (s : State) : State :=
  if s.pins.bsens then s
  else
    let t := { s with pins.bsens := true }
    if s.active && s.sights then { t.sightLead with tt.sightActive := true, tt.sightAcc := 0 } else t

/-- SIGHT_LEADING_EDGE (R29). -/
def execSightLeadingEdge (s : State) : Host.Outcome State Fault Refusal := answers s (onSightLeadingEdge s)

/-- The measured length M (R31). -/
def measuredLength (acc : Nat) : Nat := max 10 (min 650 (acc / 1000))

/-- The distance of a record's trail, taken with a measured length, from the own sensor (R31). -/
def State.trailDistance (s : State) (m : Nat) (r : BoardRec) : Nat := distance ((r.lead : Int) - 1000 * m) s.sensor

/-- A record corrected at a trailing edge: origin ENTRY keeps its length (R31, R34). -/
def BoardRec.relength (r : BoardRec) (m : Nat) : BoardRec := if r.origin = .entry then r else { r with length := m }

/-- The trailing edge matches a record, or none (R31). -/
def State.sightTrail (s : State) (m : Nat) : State :=
  match nearest (fun r => r.sighted && decide (s.trailDistance m r ≤ s.capture)) (s.trailDistance m) s.tt.table with
  | none => s
  | some x =>
    (s.correct x.1 (s.sensor + 1000 * (x.2.relength m).length) fun r => r.relength m).report x.2.id true m

/-- A trailing edge of the own sensor (R31). -/
def onSightTrailingEdge (s : State) : State :=
  if s.pins.bsens then
    let t := { s with pins.bsens := false }
    if s.active && s.sights && s.tt.sightActive then
      { t with tt.sightActive := false }.sightTrail (measuredLength s.tt.sightAcc)
    else t
  else s

/-- SIGHT_TRAILING_EDGE (R31). -/
def execSightTrailingEdge (s : State) : Host.Outcome State Fault Refusal := answers s (onSightTrailingEdge s)

/-- An own SIGHT is taken by self-reception: one of edge kind LEAD and id 0 creates the unnamed record (R30, R32). -/
def ownSightArrives (s : State) (_ : Addr) (f : Frame) : State :=
  match f with
  | .sight c =>
    if !c.trail ∧ c.id = 0 then s.create (newRec 0 10 c.position.toNat .ownSight true) else s
  | _ => s

/-- An own SIGHT is taken (R32). -/
def onOwnSightTaken (s : State) : State := s.takeOwn .sight ownSightArrives

/-- OWN_SIGHT_TAKEN (R32). -/
def execOwnSightTaken (s : State) : Host.Outcome State Fault Refusal := answers s (onOwnSightTaken s)

/-- A peer's SIGHT of edge kind LEAD (R33). -/
def State.peerLead (s : State) (id : Byte) (p : Nat) : State :=
  match findId id s.tt.table with
  | some x =>
    if id = 0 then s.create (newRec 0 10 p .peerSight false)
    else if distance x.2.lead p ≤ s.capture then s.correct x.1 p fun r => r
    else s
  | none => s.create (newRec id 10 p .peerSight false)

/-- A peer's SIGHT of edge kind LEAD is taken (R33). -/
def onPeerSightLeadTaken (source : Addr) (id : Byte) (position : BitVec 23) (_measured : BitVec 16) (s : State) : State :=
  s.takeFrom .sight source fun t => t.peerLead id position.toNat

/-- PEER_SIGHT_LEAD_TAKEN (R33). -/
def execPeerSightLeadTaken (source : Addr) (id : Byte) (position : BitVec 23) (measured : BitVec 16) (s : State) :
    Host.Outcome State Fault Refusal :=
  answers s (onPeerSightLeadTaken source id position measured s)

/-- A peer's SIGHT of edge kind TRAIL, of reported position `p` and length `m` (R34). -/
def State.peerTrail (s : State) (id : Byte) (p m : Nat) : State :=
  let e := p + 1000 * m
  if m < 10 ∨ 650 < m then s
  else if id = 0 then
    match nearest (fun r => decide (r.id = 0) && decide (distance r.lead e ≤ s.capture)) (fun r => distance r.lead e)
        s.tt.table with
    | some x => s.correct x.1 e fun r => { r with length := m }
    | none => s.create (newRec 0 m e .peerSight false)
  else
    match findId id s.tt.table with
    | some x =>
      if distance x.2.lead e ≤ s.capture then
        s.correct x.1 (p + 1000 * (x.2.relength m).length) fun r => r.relength m
      else s
    | none => s.create (newRec id m e .peerSight false)

/-- A peer's SIGHT of edge kind TRAIL is taken (R34). -/
def onPeerSightTrailTaken (source : Addr) (id : Byte) (position : BitVec 23) (measured : BitVec 16) (s : State) : State :=
  s.takeFrom .sight source fun t => t.peerTrail id position.toNat measured.toNat

/-- PEER_SIGHT_TRAIL_TAKEN (R34). -/
def execPeerSightTrailTaken (source : Addr) (id : Byte) (position : BitVec 23) (measured : BitVec 16) (s : State) :
    Host.Outcome State Fault Refusal :=
  answers s (onPeerSightTrailTaken source id position measured s)

/-! ### Speed -/

/-- A rising edge of ENC at the speed-source station (R43). -/
def onEncPulse (s : State) : State :=
  if s.active && s.cl.image.station.speedSource then { s with tt.pulses := min 65535 (s.tt.pulses + 1) } else s

/-- ENC_PULSE (R43). -/
def execEncPulse (s : State) : Host.Outcome State Fault Refusal := answers s (onEncPulse s)

/-- The measured speed of a window (R43). -/
def measuredSpeed (pulses scale : Nat) : Nat := min 1000 (pulses * scale / 10)

/-- The measurement window expires (R43). -/
def onSpeedWindowExpiry (s : State) : State :=
  if s.tt.speedWindow.isSome then
    let v := measuredSpeed s.tt.pulses s.cl.image.station.encoderScale
    { s with tt.pulses := 0, tt.speedWindow := some 100 }.enqueue (.speed (BitVec.ofNat 16 v))
  else s

/-- SPEED_WINDOW_EXPIRY (R43). -/
def execSpeedWindowExpiry (s : State) : Host.Outcome State Fault Refusal := answers s (onSpeedWindowExpiry s)

/-- The SPEED comes from a new source while the source timer runs (R46). -/
def State.speedConflicts (s : State) (source : Addr) : Bool :=
  s.tt.sourceTimer.isSome && decide (s.tt.source ≠ some source)

/-- A SPEED is taken (R44 to R46). -/
def State.speedArrives (s : State) (source : Addr) (value : BitVec 16) : State :=
  { s with
    tt.speed := min 1000 value.toNat, tt.stale := false, tt.staleTimer := some 2000
    tt.conflict := s.tt.conflict || s.speedConflicts source
    tt.conflictTimer := if s.speedConflicts source then some 1000 else s.tt.conflictTimer
    tt.source := some source, tt.sourceTimer := some 1000 }

/-- An own SPEED is taken by self-reception (R44). -/
def ownSpeedArrives (s : State) (source : Addr) (f : Frame) : State :=
  match f with
  | .speed v => s.speedArrives source v
  | _ => s

/-- A SPEED is taken, own or heard (R44). -/
def onSpeedTaken (rx : Rx (BitVec 16)) (s : State) : State :=
  match rx with
  | .own => s.takeOwn .speed ownSpeedArrives
  | .heard source v => s.takeFrom .speed source fun t => t.speedArrives source v

/-- SPEED_TAKEN (R44). -/
def execSpeedTaken (rx : Rx (BitVec 16)) (s : State) : Host.Outcome State Fault Refusal :=
  answers s (onSpeedTaken rx s)

/-- The stale timer expires (R45). -/
def onStaleTimerExpiry (s : State) : State :=
  if s.tt.staleTimer.isSome then { s with tt.stale := true, tt.staleTimer := none } else s

/-- STALE_TIMER_EXPIRY (R45). -/
def execStaleTimerExpiry (s : State) : Host.Outcome State Fault Refusal := answers s (onStaleTimerExpiry s)

/-- The source timer expires (R46). -/
def onSourceTimerExpiry (s : State) : State :=
  if s.tt.sourceTimer.isSome then { s with tt.sourceTimer := none } else s

/-- SOURCE_TIMER_EXPIRY (R46). -/
def execSourceTimerExpiry (s : State) : Host.Outcome State Fault Refusal := answers s (onSourceTimerExpiry s)

/-- The conflict timer expires (R46). -/
def onConflictTimerExpiry (s : State) : State :=
  if s.tt.conflictTimer.isSome then { s with tt.conflict := false, tt.conflictTimer := none } else s

/-- CONFLICT_TIMER_EXPIRY (R46). -/
def execConflictTimerExpiry (s : State) : Host.Outcome State Fault Refusal := answers s (onConflictTimerExpiry s)

/-! ### The tracking interval -/

/-- A position or accumulator grown by a travel (R48). -/
def advanceBy (e x : Nat) : Nat := min maxPosition (x + e)

/-- The table and the measurements advance by the effective speed (R48). -/
def State.advance (s : State) : State :=
  let e := s.effectiveSpeed
  { s with
    tt.table := s.tt.table.map fun r => { r with lead := advanceBy e r.lead }
    tt.entryAcc := if s.tt.entryActive then advanceBy e s.tt.entryAcc else s.tt.entryAcc
    tt.sightAcc := if s.tt.sightActive then advanceBy e s.tt.sightAcc else s.tt.sightAcc }

/-- The tracking interval expires (R48, R50, R148). -/
def onTrackingIntervalExpiry (s : State) : State :=
  if s.active ∧ s.tt.interval.isSome then
    { s.advance with tt.interval := some 10 }.evaluate.sample [some .tracking]
  else s

/-- TRACKING_INTERVAL_EXPIRY (R48). -/
def execTrackingIntervalExpiry (s : State) : Host.Outcome State Fault Refusal :=
  answers s (onTrackingIntervalExpiry s)

end Sys2Proof.Machine
end

