-- ==== Sys2Proof/Machine/Dispatch.lean ====
section
/-! DEFINITION. What each command does: one arm per constructor of Instr, one call of its meaning. -/

namespace Sys2Proof.Machine

/-- The effect of a command on everything but the queue of commands. -/
def exec (i : Instr) (s : State) : Host.Outcome State Fault Refusal :=
  match i with
  | .attemptStart => Sys2Proof.Machine.execAttemptStart s
  | .lostArbitration => Sys2Proof.Machine.execLostArbitration s
  | .attemptFailed => Sys2Proof.Machine.execAttemptFailed s
  | .frameBad levels => Sys2Proof.Machine.execFrameBad levels s
  | .frameTakenUndelivered rx => Sys2Proof.Machine.execFrameTakenUndelivered rx s
  | .replyTaken rx => Sys2Proof.Machine.execReplyTaken rx s
  | .commandNotAddressed h => Sys2Proof.Machine.execCommandNotAddressed h s
  | .unknownCommand source payload => Sys2Proof.Machine.execUnknownCommand source payload s
  | .restart h => Sys2Proof.Machine.execRestart h s
  | .restartTimerExpiry => Sys2Proof.Machine.execRestartTimerExpiry s
  | .transitRead h index part => Sys2Proof.Machine.execTransitRead h index part s
  | .totalsRead h counter => Sys2Proof.Machine.execTotalsRead h counter s
  | .totalsClear h counters => Sys2Proof.Machine.execTotalsClear h counters s
  | .chStart h chans => Sys2Proof.Machine.execChStart h chans s
  | .chHalt h chans => Sys2Proof.Machine.execChHalt h chans s
  | .chHaltSave h chans => Sys2Proof.Machine.execChHaltSave h chans s
  | .chContinue h chans => Sys2Proof.Machine.execChContinue h chans s
  | .chQuery h chan => Sys2Proof.Machine.execChQuery h chan s
  | .loopSetpoint h loop value => Sys2Proof.Machine.execLoopSetpoint h loop value s
  | .loopEnable h loops => Sys2Proof.Machine.execLoopEnable h loops s
  | .loopDisable h loops => Sys2Proof.Machine.execLoopDisable h loops s
  | .levelFeedReset h => Sys2Proof.Machine.execLevelFeedReset h s
  | .alarmAck h points => Sys2Proof.Machine.execAlarmAck h points s
  | .permitGrant h grant withdraw => Sys2Proof.Machine.execPermitGrant h grant withdraw s
  | .permitWithdraw h withdraw => Sys2Proof.Machine.execPermitWithdraw h withdraw s
  | .permitQuery h test => Sys2Proof.Machine.execPermitQuery h test s
  | .resume h => Sys2Proof.Machine.execResume h s
  | .entryLeadingEdge tag => Sys2Proof.Machine.execEntryLeadingEdge tag s
  | .entryTrailingEdge => Sys2Proof.Machine.execEntryTrailingEdge s
  | .longBoardTimerExpiry => Sys2Proof.Machine.execLongBoardTimerExpiry s
  | .entryTaken rx => Sys2Proof.Machine.execEntryTaken rx s
  | .sightLeadingEdge => Sys2Proof.Machine.execSightLeadingEdge s
  | .sightTrailingEdge => Sys2Proof.Machine.execSightTrailingEdge s
  | .ownSightTaken => Sys2Proof.Machine.execOwnSightTaken s
  | .peerSightLeadTaken source id position measured => Sys2Proof.Machine.execPeerSightLeadTaken source id position measured s
  | .peerSightTrailTaken source id position measured => Sys2Proof.Machine.execPeerSightTrailTaken source id position measured s
  | .encPulse => Sys2Proof.Machine.execEncPulse s
  | .speedWindowExpiry => Sys2Proof.Machine.execSpeedWindowExpiry s
  | .speedTaken rx => Sys2Proof.Machine.execSpeedTaken rx s
  | .staleTimerExpiry => Sys2Proof.Machine.execStaleTimerExpiry s
  | .sourceTimerExpiry => Sys2Proof.Machine.execSourceTimerExpiry s
  | .conflictTimerExpiry => Sys2Proof.Machine.execConflictTimerExpiry s
  | .trackingIntervalExpiry => Sys2Proof.Machine.execTrackingIntervalExpiry s
  | .delayExpiry k => Sys2Proof.Machine.execDelayExpiry k s
  | .onTimeExpiry k => Sys2Proof.Machine.execOnTimeExpiry k s
  | .offPhaseExpiry k => Sys2Proof.Machine.execOffPhaseExpiry k s
  | .haltingExpiry k => Sys2Proof.Machine.execHaltingExpiry k s
  | .chreqAssertion k => Sys2Proof.Machine.execChreqAssertion k s
  | .chendAssertion k => Sys2Proof.Machine.execChendAssertion k s
  | .generalInputChange pin level => Sys2Proof.Machine.execGeneralInputChange pin level s
  | .tcConversion raw0 raw1 => Sys2Proof.Machine.execTcConversion raw0 raw1 s
  | .zeroCrossing sinceLast => Sys2Proof.Machine.execZeroCrossing sinceLast s
  | .mainsLost => Sys2Proof.Machine.execMainsLost s
  | .controlPeriodExpiry => Sys2Proof.Machine.execControlPeriodExpiry s
  | .demandTaken rx => Sys2Proof.Machine.execDemandTaken rx s
  | .entryAgeExpiry station loop => Sys2Proof.Machine.execEntryAgeExpiry station loop s
  | .refusalTimerExpiry => Sys2Proof.Machine.execRefusalTimerExpiry s
  | .startTimerExpiry => Sys2Proof.Machine.execStartTimerExpiry s
  | .levelSample reading => Sys2Proof.Machine.execLevelSample reading s
  | .settleTimerExpiry => Sys2Proof.Machine.execSettleTimerExpiry s
  | .feedTimerExpiry => Sys2Proof.Machine.execFeedTimerExpiry s
  | .extractionTimerExpiry reading => Sys2Proof.Machine.execExtractionTimerExpiry reading s
  | .monitorTimerExpiry gain0 gain1 => Sys2Proof.Machine.execMonitorTimerExpiry gain0 gain1 s
  | .gapTimerExpiry => Sys2Proof.Machine.execGapTimerExpiry s
  | .statusTimerExpiry => Sys2Proof.Machine.execStatusTimerExpiry s
  | .stateTaken rx => Sys2Proof.Machine.execStateTaken rx s
  | .joinTaken rx => Sys2Proof.Machine.execJoinTaken rx s
  | .alarmTaken rx => Sys2Proof.Machine.execAlarmTaken rx s
  | .silenceTimerExpiry station => Sys2Proof.Machine.execSilenceTimerExpiry station s
  | .graceTimerExpiry => Sys2Proof.Machine.execGraceTimerExpiry s
  | .triggerTimerExpiry => Sys2Proof.Machine.execTriggerTimerExpiry s
  | .widthTimerExpiry => Sys2Proof.Machine.execWidthTimerExpiry s
  | .stopTaken rx => Sys2Proof.Machine.execStopTaken rx s
  | .reset cause => Sys2Proof.Machine.execReset cause s
  | .resetRelease cause straps => Sys2Proof.Machine.execResetRelease cause straps s
  | .imageReadComplete bytes => Sys2Proof.Machine.execImageReadComplete bytes s
  | .imageReadFailed cause => Sys2Proof.Machine.execImageReadFailed cause s
  | .readRetryWaitExpiry => Sys2Proof.Machine.execReadRetryWaitExpiry s
  | .joinTimerExpiry raw0 raw1 level => Sys2Proof.Machine.execJoinTimerExpiry raw0 raw1 level s
  | .firstIdleAfterReset => Sys2Proof.Machine.execFirstIdleAfterReset s
  | .requestOrEndInputRelease isEnd k => Sys2Proof.Machine.execRequestOrEndInputRelease isEnd k s

end Sys2Proof.Machine
end

