-- ==== Sys2Proof/Safety.lean ====
section
/-! DEFINITION. What statements about the machine speak of: when a frame or a command reaches its block, and the invariants
that every step keeps. -/

namespace Sys2Proof.Machine

/-! ### When a frame or a command reaches its block -/

/-- A frame from this source is taken by the line interface, from another station whose address is 1-30, and does not end MUTE
(R7, R13, R14). -/
def State.hears (s : State) (source : Addr) : Bool :=
  s.receiving && (decide (s.li.line = .active) || decide (s.li.good + 1 ≠ 32)) &&
    decide (s.cl.address ≠ some source) && sourceValid source

/-- The state once the acknowledge slot of a frame that is heard has been driven dominant, and in MUTE the frame has been counted
(R7, R13). -/
def State.acked (s : State) : State :=
  { s with li.ack := true, li.good := if s.li.line = .mute then s.li.good + 1 else s.li.good }

/-- A frame from this source reaches its block in OPERATING (R14). -/
def State.takes (s : State) (source : Addr) : Bool := s.hears source && s.operating

/-- A command is acted on by its block: heard in OPERATING, addressed to the station or broadcast (R15, R17). -/
def State.commanded (s : State) (h : CmdHeader) : Bool :=
  s.takes h.source && (decide (h.dest = broadcast) || s.addressed h)

/-- An addressed command is answered with a REPLY; a broadcast one is not (R15). -/
def State.replied (s : State) (h : CmdHeader) (code : Byte) (r : ResultCode) (data : List Byte) : State :=
  if h.dest = broadcast then s
  else s.enqueue (.reply { panel := h.source, code := code, result := r, data := data })

/-- An own frame is in flight (R3), so that it can complete. -/
def State.sends (s : State) (f : Frame) : Bool := decide (s.inFlight.map (·.frame) = some f)

/-- The header and command code of a well-formed COMMAND other than RESTART, by its row (R189). -/
def ownerCommand : Instr → Option (CmdHeader × Byte)
  | .transitRead h _ _ => some (h, codeTransitRead)
  | .totalsRead h _ => some (h, codeTotalsRead)
  | .totalsClear h _ => some (h, codeTotalsClear)
  | .chStart h _ => some (h, codeChStart)
  | .chHalt h _ => some (h, codeChHalt)
  | .chHaltSave h _ => some (h, codeChHaltSave)
  | .chContinue h _ => some (h, codeChContinue)
  | .chQuery h _ => some (h, codeChQuery)
  | .loopSetpoint h _ _ => some (h, codeLoopSetpoint)
  | .loopEnable h _ => some (h, codeLoopEnable)
  | .loopDisable h _ => some (h, codeLoopDisable)
  | .levelFeedReset h => some (h, codeLevelFeedReset)
  | .alarmAck h _ => some (h, codeAlarmAck)
  | .permitGrant h _ _ => some (h, codePermitGrant)
  | .permitWithdraw h _ => some (h, codePermitWithdraw)
  | .permitQuery h _ => some (h, codePermitQuery)
  | .resume h => some (h, codeResume)
  | _ => none

/-- The source of the frame that a command takes from the line; `none` where it takes none, also where the event is not one for
the state (R13 to R15, log 4). -/
def State.heardFrom (s : State) : Instr → Option Addr
  | .frameTakenUndelivered (.heard a f) => if s.deliversRaw a f then none else some a
  | .replyTaken (.heard a _) => some a
  | .commandNotAddressed h => if s.addressed h || decide (h.dest = broadcast) then none else some h.source
  | .unknownCommand a payload => if malformedCommand payload then some a else none
  | .restart h => some h.source
  | .entryTaken (.heard a _) => some a
  | .peerSightLeadTaken a _ _ _ => some a
  | .peerSightTrailTaken a _ _ _ => some a
  | .speedTaken (.heard a _) => some a
  | .demandTaken (.heard a _) => some a
  | .stateTaken (.heard a _) => some a
  | .joinTaken (.heard a _) => some a
  | .alarmTaken (.heard a _) => some a
  | .stopTaken (.heard a _) => some a
  | c => (ownerCommand c).map fun x => x.1.source

/-- A frame that reaches no block in any state (R14, R15). -/
def reachesNoBlock : Instr → Bool
  | .frameTakenUndelivered _ => true
  | .replyTaken _ => true
  | .commandNotAddressed _ => true
  | _ => false

/-- An entry for a frame that has just been queued (R8). -/
def State.newEntry (s : State) (f : Frame) : QEntry :=
  { frame := f, mark := false, attempts := 0, queuedAt := s.now.ms, moment := s.now.moment, flight := none, restart := false }

/-- A record apart from the marks that the windows give it. -/
def BoardRec.body (r : BoardRec) : BoardRec := { r with served := 0, inWin := 0 }

/-- A record that holds no marks, as it is created (R28, R30, R33, R34). -/
def freshRec (id : Byte) (length : Nat) (tag : BitVec 3) (lead : Nat) (origin : Origin) (sighted : Bool) : BoardRec :=
  { id := id, length := length, tag := tag, lead := lead, origin := origin, sighted := sighted, missed := false
    served := 0, inWin := 0 }

/-- The record at an index is a candidate, and of the candidates the nearest, the downstream one of two equally near
(R29, R31, R34). -/
def IsNearest (table : List BoardRec) (candidate : BoardRec → Bool) (d : BoardRec → Nat) (i : Nat) (r : BoardRec) :
    Prop :=
  table[i]? = some r ∧ candidate r = true ∧
    ∀ (j : Nat) (x : BoardRec), table[j]? = some x → candidate x = true → d r < d x ∨ (d r = d x ∧ i ≤ j)

/-- A record marked served for those channels of a set whose window it occupies (R37, R53). -/
def BoardRec.marked (img : Image) (marks : Chan → Bool) (r : BoardRec) : BoardRec :=
  { r with served := r.served ||| setOf 4 allChans fun k => marks k && occupies img.chans[k] r }

/-! ### What a channel becomes -/

/-- The channel after its synchronization: pulse count 0, blocked-window mark clear, ON where the delay is 0 and else DELAY
(R65, R66). -/
def Channel.begins (c : ChanCfg) (x : Channel) : Channel :=
  { x with
    pulses := 0, blockedMark := false
    st := if c.delay * c.periodBase = 0 then .on else .delay
    timer :=
      if c.delay * c.periodBase = 0 then (if c.onTime = 0 then none else some (c.onTime * c.onBase))
      else some (c.delay * c.periodBase) }

/-- The channel after it has entered ARMED, `unserved` saying that its window holds an unserved board (R62). -/
def Channel.arms (c : ChanCfg) (unserved : Bool) (x : Channel) : Channel :=
  let y := { x with st := .armed, timer := none, saved := none }
  match c.mode with
  | .free => y.begins c
  | .board => if unserved then y.begins c else y
  | .input => y
  | .off => y

/-- The channel after a termination with a cause that has a follow action (R70, R73). -/
def Channel.ends (c : ChanCfg) (unserved : Bool) (cause : Cause) (x : Channel) : Channel :=
  let y := { x with st := .idle, timer := none, saved := none, cause := cause }
  match cause with
  | .count => if c.rearmCount then y.arms c unserved else y
  | .single => if c.rearmSingle then y.arms c unserved else y
  | .window => if c.rearmWindow then y.arms c unserved else y
  | .inputEnd => if c.rearmInputEnd then y.arms c unserved else y
  | _ => y

/-- The channel after a pulse is complete (R67). -/
def Channel.pulsed (c : ChanCfg) (unserved : Bool) (x : Channel) : Channel :=
  let y := { x with pulses := min 65535 (x.pulses + 1) }
  if c.countLimit ≠ 0 ∧ y.pulses = c.countLimit then y.ends c unserved .count
  else if c.period = 0 then y.ends c unserved .single
  else { y with st := .off, timer := some (c.period * c.periodBase - c.onTime * c.onBase) }

/-- The channel after a termination that leads into a state, a steady pulse being counted where it leaves ON (R69, R70). -/
def Channel.stopsIn (c : ChanCfg) (cause : Cause) (st : ChanState) (x : Channel) : Channel :=
  { x with
    st := st, timer := none, saved := none, cause := cause
    pulses := if x.st = .on ∧ c.onTime = 0 then min 65535 (x.pulses + 1) else x.pulses }

/-- The most severe result of the channels that a set names (R16, R78). -/
def IsWorst (set : BitVec 8) (result : Chan → ResultCode) (r : ResultCode) : Prop :=
  (∀ k : Chan, set.getLsbD k.val = true → (result k).code ≤ r.code) ∧
    (r = .done ∨ ∃ k : Chan, set.getLsbD k.val = true ∧ result k = r)

/-! ### What an operation can change -/

/-- From `s` to `t` only the queue, TXQ_LOST and the due reset of an evicted REPLY differ: what queueing a frame can change
(R8 to R11, R177). -/
def ByQueue (s t : State) : Prop :=
  t = { s with li.queue := t.li.queue, li.txqLost := t.li.txqLost, cl.resetDue := t.cl.resetDue }

/-- Only the channels, the records' marks and the totals differ: what the channels' transitions can change (chapter 4). -/
def ByChannels (s t : State) : Prop :=
  t = { s with ac := t.ac, tt.table := t.tt.table, tt.totals := t.tt.totals }

/-- Only the channels and the tracker's table, totals, overflow, windows and counts differ: what an evaluation of the table
can change (R50). -/
def ByTable (s t : State) : Prop :=
  t = { s with
    ac := t.ac, tt.table := t.tt.table, tt.totals := t.tt.totals, tt.overflow := t.tt.overflow
    tt.windows := t.tt.windows, tt.due := t.tt.due, tt.fume := t.tt.fume }

/-- Only the monitor points, the alarm line and the queue differ: what a sampling of the points can change (R148 to R154). -/
def BySampling (s t : State) : Prop :=
  t = { s with
    mb.points := t.mb.points, mb.alarm := t.mb.alarm, mb.gapTimer := t.mb.gapTimer, li.queue := t.li.queue
    li.txqLost := t.li.txqLost, cl.resetDue := t.cl.resetDue }

/-- Only what the readers of the catalogue own differs: channels with the marks and totals they count, cells, the loops forced
off, the stop unit and the process state, the following state of the level and extraction units, and the queue. -/
def ByReaders (s t : State) : Prop :=
  t = { s with
    ac := t.ac, tt.table := t.tt.table, tt.totals := t.tt.totals, hl.loops := t.hl.loops, lu.wave := t.lu.wave
    lu.settleTimer := t.lu.settleTimer, lu.feeder := t.lu.feeder, lu.feedTimer := t.lu.feedTimer
    xu.watched := t.xu.watched, xu.target := t.xu.target, ib.cells := t.ib.cells, ib.process := t.ib.process
    ib.stopUnit := t.ib.stopUnit, ib.triggerTimer := t.ib.triggerTimer, ib.stopOut := t.ib.stopOut
    ib.widthTimer := t.ib.widthTimer, li.queue := t.li.queue, li.txqLost := t.li.txqLost
    cl.resetDue := t.cl.resetDue }

/-! ### The line interface -/

/-- The transmit queue: at most 16 entries, in the order of rank, time and number, no two that would coalesce, at most one in
flight, none past its third failed attempt (R3, R5, R8, R9). -/
abbrev QueueOk (q : List QEntry) : Prop :=
  q.length ≤ 16 ∧
    q.Pairwise (fun a b => a.precedes b = true ∧ coalesces a.frame b.frame = false) ∧
    q.countP (fun e => e.flight.isSome) ≤ 1 ∧ ∀ e ∈ q, e.attempts ≤ 3

/-- The line interface: its queue, the discard count below 4, and in MUTE an empty queue and a good-frame count below 32
(R5 to R7). -/
abbrev LineOk (s : State) : Prop :=
  QueueOk s.li.queue ∧ s.li.discards ≤ 3 ∧ s.li.good ≤ 32 ∧
    (s.li.line = .mute → s.li.queue = [] ∧ s.li.discards = 0 ∧ s.li.good < 32)

/-! ### The station -/

/-- The station states: a part held in reset stays at its values after reset, OPERATING has been entered where the station is
in it, CONFLICT alone can follow it, and no reset stays due after its event (R176, R177, R185). -/
abbrev StationOk (s : State) : Prop :=
  (s.held = true → s.blockReset = s) ∧ (s.cl.station = .operating → s.cl.started = true) ∧
    (s.cl.started = true → s.cl.station = .operating ∨ s.cl.station = .conflict) ∧ s.cl.resetDue = false

/-! ### The transit tracker -/

/-- A record: its length, its lead below saturation, its trail at or before the forget position (R20, R36). -/
abbrev RecordOk (forget : Nat) (r : BoardRec) : Prop :=
  10 ≤ r.length ∧ r.length ≤ 650 ∧ r.lead < maxPosition ∧ r.trail ≤ (forget : Int)

/-- The transit table: at most 24 records in strictly decreasing lead, no nonzero id twice; empty before OPERATING
(R20, R21, R24, R36). -/
abbrev TableOk (s : State) : Prop :=
  s.tt.table.length ≤ 24 ∧
    s.tt.table.Pairwise (fun a b => b.lead < a.lead ∧ (a.id = b.id → a.id = 0)) ∧
    (∀ r ∈ s.tt.table, RecordOk s.cl.image.station.forgetPosition r) ∧
    (s.cl.started = false → s.tt.table = [])

/-- The counters: totals of eight decimal digits, pulse counts of 16 bits, also saved ones (R40, R43, R60). -/
abbrev CountersOk (s : State) : Prop :=
  (∀ i : Fin 5, s.tt.totals[i].value ≤ 99999999) ∧ s.tt.pulses ≤ 65535 ∧
    ∀ k : Chan, s.ac[k].pulses ≤ 65535 ∧ ∀ x ∈ s.ac[k].saved, x.pulses ≤ 65535

/-! ### The channels -/

/-- The channels are IDLE outside OPERATING and while the process state is STOPPED (R76). -/
abbrev ChannelsIdle (s : State) : Prop :=
  s.cl.station ≠ .operating ∨ s.ib.process = .stopped → ∀ k : Chan, s.ac[k].st = .idle

/-! ### The loops and the budget -/

/-- A heat loop: the ranges of its values, and no applied output above the output computed (R86, R87, R92, R93, R96, R97). -/
abbrev LoopOk (l : HeatLoop) : Prop :=
  l.pv ≤ 5000 ∧ l.openCnt ≤ 3 ∧ l.goodCnt ≤ 3 ∧ l.integ ≤ 100000 ∧ l.uOut ≤ l.u ∧ l.u ≤ 1000 ∧ l.carry ≤ 9 ∧
    l.half ≤ 100 ∧ l.pos ≤ 100

/-- Both heat loops. -/
abbrev LoopsOk (s : State) : Prop := ∀ i : LoopIx, LoopOk s.hl.loops[i]

/-- The demand table: at most 32 entries, no key twice, every value in its range (R106, R107). -/
abbrev DemandsOk (s : State) : Prop :=
  s.bu.table.length ≤ 32 ∧
    s.bu.table.Pairwise (fun a b => ¬(a.station = b.station ∧ a.loop = b.loop)) ∧
    ∀ e ∈ s.bu.table, e.cls ≤ 1 ∧ e.demand ≤ 2000 ∧ e.age ≤ 3000

/-! ### The level, extraction and monitor blocks -/

/-- The ranges of the level unit, the extraction unit, the speed and the board ids (R27, R43, R44, R120, R124, R137 to R139). -/
abbrev UnitsOk (s : State) : Prop :=
  (-500 ≤ s.lu.raw ∧ s.lu.raw ≤ 500) ∧ (-500 ≤ s.lu.comp ∧ s.lu.comp ≤ 500) ∧ s.lu.valid ≤ 2 ∧
    s.xu.target ≤ 1000 ∧ s.xu.output ≤ 1000 ∧ s.xu.pwm ≤ 1000 ∧ s.xu.airflow ≤ 2000 ∧
    s.tt.speed ≤ 1000 ∧ (1 ≤ s.tt.nextId ∧ s.tt.nextId ≤ 255)

/-- The alarm line: asserted in UNCONFIGURED and CONFLICT; outside them asserted or in GAP while some point is RAISED or
CLEARED-UNACKED and deasserted or in GAP while none is; deasserted, with no point raised, before OPERATING (R153, R154). -/
abbrev AlarmOk (s : State) : Prop :=
  (s.cl.station = .unconfigured ∨ s.cl.station = .conflict → s.mb.alarm = .asserted) ∧
    (s.cl.station = .operating →
      (s.anyAlarmed = true → s.mb.alarm ≠ .deasserted) ∧ (s.anyAlarmed = false → s.mb.alarm ≠ .asserted)) ∧
    (s.cl.station = .loading ∨ s.cl.station = .joining → s.mb.alarm = .deasserted) ∧
    (s.cl.started = false → s.anyAlarmed = false)

end Sys2Proof.Machine
end

