-- ==== Sys2Proof/Certificates/Slice0/Obligations.lean ====
section
/-! DEFINITION. The statements for the provers, in the order of the spec's chapters. A statement about a command says what it
does itself; `finish` then brings the readers of the catalogue to rest and makes a reset that fell due (Machine/Follow.lean),
and TimePassesAndEventsEnd says what that can change. -/

section

open Sys2Proof Sys2Proof.Machine

/-! ### Steps and events -/

/-- A step takes the command at the front of the queue. -/
def Obligations.StepTakesFront : Prop :=
  ∀ (c : Instr) (rest : List Instr) (s : State),
    step { s with pending := c :: rest } = exec c { s with pending := rest }

/-- On an empty queue time passes: the expiry of one of the timers that have run out is put into the queue, or else 1 ms goes
by, in which every running timer loses 1 ms and FANPWM takes up the fan output (the model's choice, logs 2, 5, 6 and 24; log 33
for a read that waits for the serial bus). Every event ends its moment, and the expiries that the clock brings in a row are of
one moment (log 27). The end of an event: where nothing that the readers see has changed, it changes nothing more; else the
readers act in rounds until they are at rest, the line-stop unit last, and only what they own differs then (log 8 for the order
and the number of the rounds); a reset of a RESTART that fell due takes place (log 7 for the straps it samples). The level
unit's wave running follows its channel, and each change starts the settle timer (log 32 for two changes in one event). -/
def Obligations.TimePassesAndEventsEnd : Prop :=
  (∀ s : State, s.pending = [] →
    (dueList s = [] → step s = .next s.tick) ∧
    (dueList s ≠ [] →
      let m := if s.now.moment = s.now.expiry + 1 then s.now.expiry else s.now.moment
      ∃ c ∈ dueList s,
        step s = .next { s with pending := [c], free := s.free + 2, now := { s.now with moment := m, expiry := m } })) ∧
  (∀ s : State,
    let less : Timer → Timer := fun t => t.map fun n => n - 1
    let waits := s.cl.busTimer.isSome && !Config.busFree s.free
    s.tick =
      { s with
        now := { s.now with ms := s.now.ms + 1, moment := s.now.moment + 1 }
        free := s.free + 1, tt.longTimer := less s.tt.longTimer
        tt.speedWindow := less s.tt.speedWindow, tt.staleTimer := less s.tt.staleTimer
        tt.sourceTimer := less s.tt.sourceTimer, tt.conflictTimer := less s.tt.conflictTimer
        tt.interval := less s.tt.interval, ac := s.ac.map fun c => { c with timer := less c.timer }
        hl.tcTimer := less s.hl.tcTimer, hl.zcTimer := less s.hl.zcTimer
        bu.table := s.bu.table.map fun e => { e with age := e.age - 1 }
        bu.refusalTimer := less s.bu.refusalTimer, bu.startTimer := less s.bu.startTimer
        lu.settleTimer := less s.lu.settleTimer, lu.feedTimer := less s.lu.feedTimer
        lu.levelTimer := less s.lu.levelTimer, xu.timer := less s.xu.timer, xu.pwm := s.xu.output
        mb.monitorTimer := less s.mb.monitorTimer, mb.gapTimer := less s.mb.gapTimer
        mb.statusTimer := less s.mb.statusTimer, mb.graceTimer := less s.mb.graceTimer
        mb.peers := s.mb.peers.map fun e => { e with silence := less e.silence }
        ib.triggerTimer := less s.ib.triggerTimer, ib.widthTimer := less s.ib.widthTimer
        cl.joinTimer := less s.cl.joinTimer, cl.restartTimer := less s.cl.restartTimer
        cl.retryTimer := less s.cl.retryTimer
        cl.readTimer := if waits then s.cl.readTimer else less s.cl.readTimer
        cl.busTimer := if waits then less s.cl.busTimer else none }) ∧
  (∀ (s : State) (c : Instr),
    let raw := Config.freeTc s.free
    let raw' := Config.freeTc (s.free + 1)
    c ∈ dueList s ↔
      (s.cl.restartTimer = some 0 ∧ c = .restartTimerExpiry) ∨
      (s.cl.readTimer = some 0 ∧ c = .imageReadFailed .timeout) ∨
      (s.cl.busTimer = some 0 ∧ c = .imageReadFailed .busNotFree) ∨
      (s.cl.retryTimer = some 0 ∧ c = .readRetryWaitExpiry) ∨
      (s.cl.joinTimer = some 0 ∧ c = .joinTimerExpiry raw raw' (Config.freeLevel s.free)) ∨
      (s.tt.interval = some 0 ∧ c = .trackingIntervalExpiry) ∨
      (s.tt.speedWindow = some 0 ∧ c = .speedWindowExpiry) ∨
      (s.tt.staleTimer = some 0 ∧ c = .staleTimerExpiry) ∨
      (s.tt.sourceTimer = some 0 ∧ c = .sourceTimerExpiry) ∨
      (s.tt.conflictTimer = some 0 ∧ c = .conflictTimerExpiry) ∨
      (s.tt.longTimer = some 0 ∧ c = .longBoardTimerExpiry) ∨
      (∃ k : Chan, s.ac[k].timer = some 0 ∧
        ((s.ac[k].st = .delay ∧ c = .delayExpiry k) ∨ (s.ac[k].st = .on ∧ c = .onTimeExpiry k) ∨
          (s.ac[k].st = .off ∧ c = .offPhaseExpiry k) ∨ (s.ac[k].st = .halting ∧ c = .haltingExpiry k))) ∨
      (s.hl.tcTimer = some 0 ∧ c = .tcConversion raw raw') ∨
      (s.hl.zcTimer = some 0 ∧ c = .mainsLost) ∨
      (s.periodsRun = true ∧ (∃ i : LoopIx, 100 ≤ s.hl.loops[i].pos) ∧ c = .controlPeriodExpiry) ∨
      (∃ e ∈ s.bu.table, e.age = 0 ∧ c = .entryAgeExpiry e.station e.loop) ∨
      (s.bu.refusalTimer = some 0 ∧ c = .refusalTimerExpiry) ∨
      (s.bu.startTimer = some 0 ∧ c = .startTimerExpiry) ∨
      (s.lu.levelTimer = some 0 ∧ c = .levelSample (Config.freeLevel s.free)) ∨
      (s.lu.settleTimer = some 0 ∧ c = .settleTimerExpiry) ∨
      (s.lu.feedTimer = some 0 ∧ c = .feedTimerExpiry) ∨
      (s.xu.timer = some 0 ∧ c = .extractionTimerExpiry (Config.freeAirflow s.free)) ∨
      (s.mb.monitorTimer = some 0 ∧
        c = .monitorTimerExpiry (Config.freeGain s.free) (Config.freeGain (s.free + 1))) ∨
      (s.mb.gapTimer = some 0 ∧ c = .gapTimerExpiry) ∨
      (s.mb.statusTimer = some 0 ∧ c = .statusTimerExpiry) ∨
      (s.mb.graceTimer = some 0 ∧ c = .graceTimerExpiry) ∨
      (∃ e ∈ s.mb.peers, e.silence = some 0 ∧ c = .silenceTimerExpiry e.addr) ∨
      (s.ib.triggerTimer = some 0 ∧ c = .triggerTimerExpiry) ∨
      (s.ib.widthTimer = some 0 ∧ c = .widthTimerExpiry)) ∧
  (∀ s t : State,
    let ends := fun (u : State) => { u with now.moment := u.now.moment + 1 }
    (readable s = readable t → t.cl.resetDue = false → finish s t = ends t) ∧
    (readable s = readable t → t.cl.resetDue = true → finish s t = ends t.restart) ∧
    (readable s ≠ readable t → (settle 32 t).cl.resetDue = false → finish s t = ends (settle 32 t)) ∧
    (readable s ≠ readable t → (settle 32 t).cl.resetDue = true → finish s t = ends (settle 32 t).restart)) ∧
  (∀ s : State,
    let straps := Config.freeStraps s.free
    let v := { s.blockReset with pins.straps := straps, free := s.free + 1 }
    (straps ≠ 0 → straps ≠ 31 →
      s.restart = { v with cl.address := some straps, cl.readTimer := some 100, cl.busTimer := some 10 }) ∧
    (straps = 0 ∨ straps = 31 →
      s.restart = { v with cl.station := .unconfigured, cl.fault := .addressBad, mb.alarm := .asserted })) ∧
  (∀ s : State,
    s.blocksFollow = ((s.loopFollows 0).loopFollows 1).feedFollows.waveFollows.extractionFollows ∧
    s.round = (s.blocksFollow.formCells.channelsFollow s.blocksFollow.formCells).blocksFollow.formCells ∧
    settle 0 s = s.stopFollows.blocksFollow.formCells ∧
    ∀ n : Nat,
      (readable s.round ≠ readable s → settle (n + 1) s = settle n s.round) ∧
      (readable s.round = readable s → readable s.round.stopFollows ≠ readable s.round →
        settle (n + 1) s = settle n s.round.stopFollows) ∧
      (readable s.round = readable s → readable s.round.stopFollows = readable s.round →
        settle (n + 1) s = s.round.stopFollows) ∧
      ByReaders s (settle n s)) ∧
  ∀ s : State,
    let c := s.cl.image.level
    (c.inUse = false ∨ s.active = false → s.waveFollows = s) ∧
    (c.wave = none → s.lu.wave = false → s.waveFollows = s) ∧
    ∀ k : Chan, c.inUse = true → s.active = true → c.wave = some k →
      let runs := decide (s.ac[k].st = .delay ∨ s.ac[k].st = .on ∨ s.ac[k].st = .off ∨ s.ac[k].st = .halting)
      (s.lu.wave = runs → s.waveFollows = s) ∧
      (s.lu.wave ≠ runs →
        s.waveFollows = { s with lu.wave := runs, lu.settleTimer := some (100 * c.settle) })

/-! ### The station line -/

/-- An attempt starts with the head of the queue; lost in arbitration, it leaves its frame queued with its count unchanged. A
failed attempt counts; the fourth failure discards the frame, and the fourth discard brings MUTE with an empty queue and all
counts at 0; where the frame discarded is the REPLY of a pending restart, the reset falls due (R177), and where such a REPLY is
only emptied with the queue it does not (log 20). The sender of a failed attempt has driven no acknowledge slot. -/
def Obligations.AttemptsStartAndEnd : Prop :=
  (∀ (s : State) (e : QEntry) (q : List QEntry), s.receiving = true → s.li.line = .active →
    (s.cl.station = .unconfigured ∨ s.cl.station = .joining ∨ s.cl.station = .operating) →
    s.li.queue = e :: q → (∀ x ∈ e :: q, x.flight = none) →
      exec .attemptStart s =
        .next (finish s { s with
          li.queue := { e with flight := some { frame := e.frame, mark := e.mark, replaced := false } } :: q })) ∧
  (∀ (s : State) (a b : List QEntry) (e : QEntry), s.li.queue = a ++ e :: b → e.flight.isSome = true →
    (∀ x ∈ a ++ b, x.flight = none) →
      exec .lostArbitration s = .next (finish s { s with li.queue := a ++ { e with flight := none } :: b })) ∧
  ∀ (s : State) (a b : List QEntry) (e : QEntry), s.li.queue = a ++ e :: b → e.flight.isSome = true →
    (∀ x ∈ a ++ b, x.flight = none) →
    (e.attempts + 1 < 4 →
      exec .attemptFailed s =
        .next (finish s { s with
          li.ack := false, li.queue := a ++ { e with attempts := e.attempts + 1, flight := none } :: b })) ∧
    (4 ≤ e.attempts + 1 → s.li.discards + 1 < 4 →
      exec .attemptFailed s =
        .next (finish s { s with
          li.ack := false, li.queue := a ++ b, li.discards := s.li.discards + 1
          cl.resetDue := s.cl.resetDue || e.restart })) ∧
    (4 ≤ e.attempts + 1 → 4 ≤ s.li.discards + 1 →
      exec .attemptFailed s =
        .next (finish s { s with
          li.ack := false, li.queue := [], li.discards := 0, li.good := 0, li.line := .mute
          cl.resetDue := s.cl.resetDue || e.restart }))

/-- A frame found bad leaves the acknowledge slot recessive and, in MUTE, sets the good-frame count to 0; the first idle after a
reset lets the line interface receive. What is taken from another station in ACTIVE and reaches no block drives the acknowledge
slot and changes nothing else: a REPLY, a COMMAND for another destination, a kind code of 10 to 15, a source of 0 or 31, a wrong
length, a kind that the station state does not deliver, whichever row tells of it. The payload lengths of the kinds are listed
(none for COMMAND, REPLY and the codes of no kind). -/
def Obligations.FramesWithoutABlockAreTaken : Prop :=
  (∀ (s : State) (levels : List Bool), s.receiving = true → receive levels = none →
    exec (.frameBad levels) s =
      .next (finish s { s with li.ack := false, li.good := if s.li.line = .mute then 0 else s.li.good })) ∧
  (∀ s : State, s.held = false →
    exec .firstIdleAfterReset s = .next (finish s { s with li.synced := true })) ∧
  (∀ kind : Nat,
    payloadLength kind =
      [some 1, some 1, some 6, some 4, some 2, none, none, some 5, some 7, some 7].getD kind none) ∧
  ∀ (s : State) (source : Addr), s.receiving = true → s.li.line = .active → s.cl.address ≠ some source →
    let isTaken := fun (c : Instr) => exec c s = .next (finish s s.acked)
    let invalid := source = 0 ∨ source = 31
    isTaken (.replyTaken (.heard source ())) ∧
    (∀ d : Byte, d ≠ broadcast → s.addressed ⟨source, d⟩ = false → isTaken (.commandNotAddressed ⟨source, d⟩)) ∧
    (∀ f : RawFrame,
      (10 ≤ f.kind.toNat ∨ invalid ∨ s.cl.station = .loading ∨
        (f.kind.toNat ≠ 5 ∧ payloadLength f.kind.toNat ≠ some f.length) ∨
        (f.kind.toNat ≠ 5 ∧ s.cl.station ≠ .joining ∧ s.cl.station ≠ .operating) ∨
        (f.kind.toNat ≠ 5 ∧ f.kind.toNat ≠ 8 ∧ f.kind.toNat ≠ 9 ∧ s.cl.station = .joining)) →
      isTaken (.frameTakenUndelivered (.heard source f))) ∧
    (invalid ∨ s.cl.station ≠ .operating →
      (∀ c : EntryContent, isTaken (.entryTaken (.heard source c))) ∧
      (∀ v : BitVec 16, isTaken (.speedTaken (.heard source v))) ∧
      (∀ c : DemandContent, isTaken (.demandTaken (.heard source c))) ∧
      (∀ c : AlarmContent, isTaken (.alarmTaken (.heard source c))) ∧
      (∀ causes : BitVec 3, isTaken (.stopTaken (.heard source causes))) ∧
      ∀ (id : Byte) (position : BitVec 23) (measured : BitVec 16),
        isTaken (.peerSightLeadTaken source id position measured) ∧
        isTaken (.peerSightTrailTaken source id position measured)) ∧
    (invalid ∨ (s.cl.station ≠ .operating ∧ s.cl.station ≠ .joining) →
      (∀ c : StateContent, isTaken (.stateTaken (.heard source c))) ∧
      ∀ c : JoinContent, isTaken (.joinTaken (.heard source c)))

/-- An own frame completes, its sender having sent the acknowledge slot recessive: its entry leaves the queue, or stays with its
new content and a count of 0 where it was replaced meanwhile; the discard count becomes 0; a STATE content that carries
TXQ_LOST, its loss mark clear, clears it; the REPLY of a pending restart brings the reset. A REPLY, and a frame that the station
state delivers to no block, does no more. -/
def Obligations.OwnFrameCompletes : Prop :=
  ∀ (s : State) (a b : List QEntry) (e : QEntry) (x : Flight), s.li.queue = a ++ e :: b → e.flight = some x →
    (∀ y ∈ a ++ b, y.flight = none) →
    s.complete =
      { s with
        li.queue := a ++ (if x.replaced then [{ e with attempts := 0, flight := none }] else []) ++ b
        li.discards := 0, li.ack := false
        li.txqLost :=
          match x.frame with
          | .state c => s.li.txqLost && !(c.txqLost && !x.mark)
          | _ => s.li.txqLost
        cl.resetDue := s.cl.resetDue || e.restart } ∧
    (x.frame.kind = .reply → exec (.replyTaken .own) s = .next (finish s s.complete)) ∧
    (x.frame.kind ≠ .reply → s.cl.station ≠ .operating →
      (s.cl.station = .joining → x.frame.kind ≠ .state ∧ x.frame.kind ≠ .join) →
      exec (.frameTakenUndelivered .own) s = .next (finish s s.complete))

/-- In MUTE each frame taken from another station counts, whatever its row, and nothing is queued; the 32nd ends MUTE, with a
discard count of 0 and a JOIN queued; the readers act on that, and the frame is then delivered as in ACTIVE (log 36 for this
order). The good-frame count keeps its 32 (log 22). A frame that reaches no block does no more. -/
def Obligations.MuteIsLeft : Prop :=
  ∀ (s : State) (c : Instr) (source : Addr), s.heardFrom c = some source → s.receiving = true → s.li.line = .mute →
    s.cl.address ≠ some source →
    let counted := { s with li.ack := true, li.good := s.li.good + 1 }
    let left :=
      settle 32
        (State.enqueue { s with li.ack := true, li.good := 32, li.line := .active, li.discards := 0 } (.join s.joinContent))
    (s.li.good + 1 ≠ 32 →
      (∃ t, exec c s = .next (finish s t) ∧ t.li = counted.li) ∧
      (reachesNoBlock c = true → exec c s = .next (finish s counted))) ∧
    (s.li.good + 1 = 32 →
      (∃ t, exec c s = .next (finish s t) ∧ exec c left = .next (finish left t)) ∧
      (reachesNoBlock c = true → exec c s = .next (finish s left)))

/-- A frame from the own address that another station sent, whatever its row, taken in JOINING or OPERATING, brings CONFLICT: the
queue emptied (an emptied REPLY of a restart brings no reset of its own, log 20), every channel IDLE with cause STOP and the
pulse of a steady one counted, the process state STOPPED, the alarm line asserted; the line state and its counts stay. It reaches
no block then, but for an addressed RESTART, whose reset is due at once. -/
def Obligations.ConflictIsDetected : Prop :=
  ∀ (s : State) (c : Instr) (own : Addr), s.heardFrom c = some own → s.receiving = true → s.cl.address = some own →
    (s.cl.station = .joining ∨ s.cl.station = .operating) →
    ∃ t : State,
      t =
        { s with
          li.queue := [], li.ack := true, cl.station := .conflict, cl.joinTimer := none, ib.process := .stopped
          mb.statusTimer := none, mb.alarm := .asserted, mb.gapTimer := none, ac := t.ac, tt.totals := t.tt.totals } ∧
      t.tt.totals[(0 : Fin 5)] = s.tt.totals[(0 : Fin 5)] ∧
      (∀ k : Chan,
        t.ac[k] = (if s.ac[k].st = .idle then s.ac[k] else s.ac[k].stopsIn s.cl.image.chans[k] .stop .idle) ∧
        t.tt.totals[pulsesTotal k] =
          if s.ac[k].st = .on ∧ s.cl.image.chans[k].onTime = 0 then s.tt.totals[pulsesTotal k].incr
          else s.tt.totals[pulsesTotal k]) ∧
      ((∀ h, c ≠ .restart h) → exec c s = .next (finish s t)) ∧
      ∀ h : CmdHeader, c = .restart h →
        let acts := sourceValid own && decide (h.dest ≠ broadcast) && s.addressed h && !s.cl.restartPending
        (acts = false → exec c s = .next (finish s t)) ∧
        (acts = true →
          exec c s =
            .next (finish s { t with cl.restartPending := true, cl.restartTimer := some 100, cl.resetDue := true }))

/-- Whether the line interface accepts a frame: in ACTIVE in UNCONFIGURED, JOINING and OPERATING, and else it is dropped; a STATE,
or a DEMAND of a loop, and no other frame, takes the place of the one that is queued, with its loss mark clear, and an attempt
in flight goes on with its own content. -/
def Obligations.QueueAcceptsOrCoalesces : Prop :=
  (∀ f g : Frame,
    coalesces f g = true ↔
      (∃ x y : StateContent, f = .state x ∧ g = .state y) ∨
        ∃ x y : DemandContent, f = .demand x ∧ g = .demand y ∧ x.loop = y.loop) ∧
  ∀ (s : State) (f : Frame),
    (s.accepts = true ↔
      s.li.line = .active ∧
        (s.cl.station = .unconfigured ∨ s.cl.station = .joining ∨ s.cl.station = .operating)) ∧
    (s.li.line = .mute ∨ s.cl.station = .loading ∨ s.cl.station = .conflict → s.enqueue f = s) ∧
    (∀ (a b : List QEntry) (e : QEntry), s.accepts = true → s.li.queue = a ++ e :: b → coalesces f e.frame = true →
      (∀ x ∈ a ++ b, coalesces f x.frame = false) →
      s.enqueue f =
        { s with
          li.queue :=
            a ++ { e with frame := f, mark := false, flight := e.flight.map fun x => { x with replaced := true } } ::
              b })

/-- A frame that does not coalesce takes its place by rank, then by time, then, among DEMANDs or ALARMs of one moment, by its loop
or point (log 27 for the moment), also among the ALARMs of other events; in a full queue it evicts the most recently queued idle
entry of the lowest rank if it outranks it and is discarded if not, and either way TXQ_LOST becomes true and every STATE
content that waits or is in flight is marked, nothing else (log 18 for the frame that evicts); where the evicted frame is the
REPLY of a pending restart, the reset falls due (R177). -/
def Obligations.QueuePlacesOrEvicts : Prop :=
  (∀ e : QEntry,
    e.lose =
      { e with
        mark := match e.frame with
          | .state _ => true
          | _ => e.mark
        flight := e.flight.map fun x =>
          { x with
            mark := match x.frame with
              | .state _ => true
              | _ => x.mark } }) ∧
  (∀ f : Frame,
    f.rank =
      match f with
      | .stop _ => 0
      | .alarm _ => 1
      | .sight _ => 2
      | .entry _ => 3
      | .speed _ => 4
      | .reply _ => 6
      | .demand _ => 7
      | .state _ => 8
      | .join _ => 9) ∧
  ∀ (s : State) (f : Frame), s.accepts = true → (∀ e ∈ s.li.queue, coalesces f e.frame = false) →
    let number : Frame → Nat := fun g =>
      match g with
      | .demand c => c.loop.toNat
      | .alarm c => c.point.val
      | _ => 0
    let before := fun (e : QEntry) =>
      e.frame.rank < f.rank ∨
        (e.frame.rank = f.rank ∧
          (e.moment < s.now.moment ∨ (e.moment = s.now.moment ∧ number e.frame ≤ number f)))
    (∀ a b : List QEntry, s.li.queue = a ++ b → (a ++ b).length < 16 → (∀ e ∈ a, before e) → (∀ e ∈ b, ¬before e) →
      s.enqueue f = { s with li.queue := a ++ s.newEntry f :: b }) ∧
    (∀ (a b : List QEntry) (v : QEntry), s.li.queue = a ++ v :: b → 16 ≤ (a ++ v :: b).length → v.flight = none →
      (∀ e ∈ b, e.flight.isSome = true) →
      (v.frame.rank ≤ f.rank →
        s.enqueue f = { s with li.queue := s.li.queue.map QEntry.lose, li.txqLost := true }) ∧
      (∀ p q : List QEntry, f.rank < v.frame.rank → a ++ b = p ++ q → (∀ e ∈ p, before e) → (∀ e ∈ q, ¬before e) →
        s.enqueue f =
          { s with
            li.queue := (p ++ s.newEntry f :: q).map QEntry.lose, li.txqLost := true
            cl.resetDue := s.cl.resetDue || v.restart }))

/-- The 18 command codes with their operand lengths; no other code is a command. A COMMAND of an unknown code or a wrong length
is answered BAD-OPERAND with no data where it is addressed, and ignored where it is broadcast. Outside OPERATING a well-formed
command other than RESTART is not acted on: an addressed one is answered REFUSED-STATE with no data in UNCONFIGURED and JOINING
and not at all in CONFLICT, and a broadcast one is ignored. -/
def Obligations.CommandsAreTurnedAway : Prop :=
  (∀ code : Byte,
    operandLength code =
      [(0x01#8, 0), (0x10#8, 2), (0x11#8, 1), (0x12#8, 1), (0x20#8, 1), (0x21#8, 1), (0x22#8, 1), (0x23#8, 1), (0x24#8, 1),
        (0x30#8, 3), (0x31#8, 1), (0x32#8, 1), (0x40#8, 0), (0x50#8, 1), (0x60#8, 4), (0x61#8, 2), (0x62#8, 2),
        (0x63#8, 0)].lookup code) ∧
  [codeRestart, codeTransitRead, codeTotalsRead, codeTotalsClear, codeChStart, codeChHalt, codeChHaltSave, codeChContinue,
      codeChQuery, codeLoopSetpoint, codeLoopEnable, codeLoopDisable, codeLevelFeedReset, codeAlarmAck, codePermitGrant,
      codePermitWithdraw, codePermitQuery, codeResume] =
    [0x01#8, 0x10#8, 0x11#8, 0x12#8, 0x20#8, 0x21#8, 0x22#8, 0x23#8, 0x24#8, 0x30#8, 0x31#8, 0x32#8, 0x40#8, 0x50#8, 0x60#8,
      0x61#8, 0x62#8, 0x63#8] ∧
  (∀ (s : State) (source : Addr) (dest code : Byte) (operands : List Byte), s.hears source = true →
    operandLength code ≠ some operands.length → dest ≠ 0 →
    ((s.cl.station = .unconfigured ∨ s.cl.station = .joining ∨ s.cl.station = .operating) →
      s.addressed ⟨source, dest⟩ = true →
      exec (.unknownCommand source (dest :: code :: operands)) s =
        .next (finish s (s.acked.enqueue
          (.reply { panel := source, code := code, result := .badOperand, data := [] })))) ∧
    (s.addressed ⟨source, dest⟩ = false →
      exec (.unknownCommand source (dest :: code :: operands)) s = .next (finish s s.acked))) ∧
  ∀ (s : State) (c : Instr) (h : CmdHeader) (code : Byte), ownerCommand c = some (h, code) → s.hears h.source = true →
    ((s.cl.station = .unconfigured ∨ s.cl.station = .joining) → h.dest ≠ broadcast → s.addressed h = true →
      exec c s =
        .next (finish s (s.acked.enqueue
          (.reply { panel := h.source, code := code, result := .refusedState, data := [] })))) ∧
    (s.cl.station ≠ .operating → (h.dest = broadcast ∨ s.cl.station = .loading ∨ s.cl.station = .conflict) →
      exec c s = .next (finish s s.acked))

/-! ### The transit tracker -/

/-- The four commands that read answer DONE with what the part holds and change nothing: TRANSIT-READ (a record's POSITION or
MARKS, or the record-absent mark), TOTALS-READ (8 digits and the rolled mark), CH-QUERY and PERMIT-QUERY; an index, part,
counter or channel out of range is answered BAD-OPERAND. -/
def Obligations.ReadsAnswerAndChangeNothing : Prop :=
  ∀ (s : State) (h : CmdHeader), s.commanded h = true →
    (∀ (index : Byte) (r : BoardRec), s.tt.table[index.toNat]? = some r → index.toNat < 24 →
      exec (.transitRead h index 0) s =
        .next (finish s (s.acked.replied h codeTransitRead .done
          [BitVec.ofNat 8 (s.tt.table.length + 32 * (r.length / 256)), r.id, BitVec.ofNat 8 r.length,
            BitVec.ofNat 8 (r.lead / 65536), BitVec.ofNat 8 (r.lead / 256), BitVec.ofNat 8 r.lead])) ∧
      exec (.transitRead h index 1) s =
        .next (finish s (s.acked.replied h codeTransitRead .done
          [BitVec.ofNat 8 s.tt.table.length, r.id,
            BitVec.ofNat 8 (r.tag.toNat + 8 * r.origin.code + 32 * r.sighted.toNat + 64 * r.missed.toNat),
            r.served.setWidth 8]))) ∧
    (∀ index : Byte, s.tt.table[index.toNat]? = none → index.toNat < 24 →
      exec (.transitRead h index 0) s =
        .next (finish s (s.acked.replied h codeTransitRead .done
          [BitVec.ofNat 8 (s.tt.table.length + 128), 0, 0, 0, 0, 0])) ∧
      exec (.transitRead h index 1) s =
        .next (finish s (s.acked.replied h codeTransitRead .done
          [BitVec.ofNat 8 (s.tt.table.length + 128), 0, 0, 0]))) ∧
    (∀ index part : Byte, 24 ≤ index.toNat ∨ 2 ≤ part.toNat →
      exec (.transitRead h index part) s =
        .next (finish s (s.acked.replied h codeTransitRead .badOperand []))) ∧
    (∀ i : Fin 5,
      exec (.totalsRead h (BitVec.ofNat 8 i.val)) s =
        .next (finish s (s.acked.replied h codeTotalsRead .done
          (([6, 4, 2, 0].map fun p =>
              BitVec.ofNat 8 (16 * (s.tt.totals[i].value / 10 ^ (p + 1) % 10) + s.tt.totals[i].value / 10 ^ p % 10)) ++
            [if s.tt.totals[i].rolled then 1 else 0])))) ∧
    (∀ counter : Byte, 5 ≤ counter.toNat →
      exec (.totalsRead h counter) s = .next (finish s (s.acked.replied h codeTotalsRead .badOperand []))) ∧
    (∀ k : Chan,
      exec (.chQuery h (BitVec.ofNat 8 k.val)) s =
        .next (finish s (s.acked.replied h codeChQuery .done
          [BitVec.ofNat 8 s.ac[k].st.code, BitVec.ofNat 8 s.ac[k].cause.code, BitVec.ofNat 8 (s.ac[k].pulses / 256),
            BitVec.ofNat 8 s.ac[k].pulses,
            BitVec.ofNat 8 ((s.windowOccupied k).toNat + 2 * s.ac[k].blockedMark.toNat)]))) ∧
    (∀ chan : Byte, 4 ≤ chan.toNat →
      exec (.chQuery h chan) s = .next (finish s (s.acked.replied h codeChQuery .badOperand []))) ∧
    (∀ test : BitVec 16,
      exec (.permitQuery h test) s =
        .next (finish s (s.acked.replied h codePermitQuery .done
          [s.ib.permits.extractLsb' 8 8, s.ib.permits.extractLsb' 0 8,
            if s.ib.permits &&& test = test then 1 else 0])))

/-- TOTALS-CLEAR sets each named counter to 0 with its rolled mark clear and leaves the others; a member outside the five
counters is answered BAD-OPERAND and clears none. An increment after a clear leaves 1. -/
def Obligations.TotalsClearClears : Prop :=
  ∀ (s : State) (h : CmdHeader) (counters : BitVec 8), s.commanded h = true →
    (counters &&& 0xe0#8 = 0 →
      ∃ totals : Vector Total 5,
        (∀ i : Fin 5, totals[i] = if counters.getLsbD i.val then ⟨0, false⟩ else s.tt.totals[i]) ∧
        exec (.totalsClear h counters) s =
          .next (finish s ({ s.acked with tt.totals := totals }.replied h codeTotalsClear .done []))) ∧
    (counters &&& 0xe0#8 ≠ 0 →
      exec (.totalsClear h counters) s = .next (finish s (s.acked.replied h codeTotalsClear .badOperand []))) ∧
    Total.incr { value := 0, rolled := false } = { value := 1, rolled := false }

/-- The entry measurement: a leading edge at the entry-source station starts it; the trailing edge ends it, as noise below
10 mm, and else with the next board id and an ENTRY of the length, clamped to 650 mm with LONG_BOARD; before OPERATING an edge
moves the pin alone, and so does a trailing edge without a measurement. -/
def Obligations.EntryIsMeasured : Prop :=
  ∀ s : State,
    (∀ tag : BitVec 3, s.active = true → s.entrySource = true → s.pins.bsens = false →
      exec (.entryLeadingEdge tag) s =
        .next (finish s { s with
          pins.bsens := true, tt.entryActive := true, tt.entryAcc := 0, tt.entryTag := tag })) ∧
    (s.active = true → s.entrySource = true → s.pins.bsens = true → s.tt.entryActive = true →
      (s.tt.entryAcc / 1000 < 10 →
        exec .entryTrailingEdge s =
          .next (finish s { s with pins.bsens := false, tt.entryActive := false })) ∧
      (10 ≤ s.tt.entryAcc / 1000 → s.tt.entryAcc / 1000 ≤ 650 →
        exec .entryTrailingEdge s =
          .next (finish s
            (State.enqueue
              { s with
                pins.bsens := false, tt.entryActive := false
                tt.nextId := if s.tt.nextId = 255 then 1 else s.tt.nextId + 1 }
              (.entry ⟨BitVec.ofNat 8 s.tt.nextId, BitVec.ofNat 16 (s.tt.entryAcc / 1000),
                s.tt.entryTag.setWidth 8⟩)))) ∧
      (650 < s.tt.entryAcc / 1000 →
        exec .entryTrailingEdge s =
          .next (finish s
            (State.enqueue
              { s with
                pins.bsens := false, tt.entryActive := false, tt.longBoard := true, tt.longTimer := some 5000
                tt.nextId := if s.tt.nextId = 255 then 1 else s.tt.nextId + 1 }
              (.entry ⟨BitVec.ofNat 8 s.tt.nextId, 650, s.tt.entryTag.setWidth 8⟩))))) ∧
    (s.active = false → s.pins.bsens = false → ∀ tag : BitVec 3,
      exec (.entryLeadingEdge tag) s = .next (finish s { s with pins.bsens := true })) ∧
    (s.pins.bsens = true → s.active = false ∨ s.tt.entryActive = false →
      exec .entryTrailingEdge s = .next (finish s { s with pins.bsens := false }))

/-- The timers whose expiry changes a condition and nothing else: LONG_BOARD, stale, source, conflict, refusal (TABLE_FULL),
start, settle, feed (FEED_TIMEOUT), grace; and the age of a demand entry, which removes it, but for one that a DEMAND has
refreshed at the same moment. -/
def Obligations.TimersExpire : Prop :=
  ∀ s : State,
    (s.tt.longTimer.isSome = true →
      exec .longBoardTimerExpiry s = .next (finish s { s with tt.longBoard := false, tt.longTimer := none })) ∧
    (s.tt.staleTimer.isSome = true →
      exec .staleTimerExpiry s = .next (finish s { s with tt.stale := true, tt.staleTimer := none })) ∧
    (s.tt.sourceTimer.isSome = true →
      exec .sourceTimerExpiry s = .next (finish s { s with tt.sourceTimer := none })) ∧
    (s.tt.conflictTimer.isSome = true →
      exec .conflictTimerExpiry s = .next (finish s { s with tt.conflict := false, tt.conflictTimer := none })) ∧
    (s.bu.refusalTimer.isSome = true →
      exec .refusalTimerExpiry s = .next (finish s { s with bu.tableFull := false, bu.refusalTimer := none })) ∧
    (s.bu.startTimer.isSome = true →
      exec .startTimerExpiry s = .next (finish s { s with bu.startTimer := none })) ∧
    (s.lu.settleTimer.isSome = true →
      exec .settleTimerExpiry s = .next (finish s { s with lu.settleTimer := none })) ∧
    (s.lu.feedTimer.isSome = true →
      exec .feedTimerExpiry s = .next (finish s { s with lu.feedTimeout := true, lu.feedTimer := none })) ∧
    (s.mb.graceTimer.isSome = true →
      exec .graceTimerExpiry s = .next (finish s { s with mb.graceTimer := none, mb.graceExpired := true })) ∧
    (∀ (station : Nat) (loop : LoopIx),
      exec (.entryAgeExpiry station loop) s =
        .next (finish s { s with
          bu.table := s.bu.table.filter fun e => !(decide (e.station = station) && decide (e.loop = loop) && decide (e.age < 3000)) }))

/-- An ENTRY taken, own or heard, creates a record of origin ENTRY with its trail at the entry sensor, after the removal of a
record that holds its id; the table is evaluated after the removal and again after the creation (log 17). One of id 0 or of a
length outside 10 to 650 does nothing. The tag is the one carried; that of a byte above 7 is open (log 15). -/
def Obligations.EntryCreatesRecord : Prop :=
  ∀ (s : State) (c : EntryContent),
    (c.id ≠ 0 → 10 ≤ c.length.toNat → c.length.toNat ≤ 650 →
      ∃ tag : BitVec 3, (c.tag.toNat < 8 → tag = c.tag.setWidth 3) ∧
        (∀ source : Addr, s.takes source = true →
          exec (.entryTaken (.heard source c)) s =
            .next (finish s ((s.acked.removeId c.id).create
              (freshRec c.id c.length.toNat tag (1000 * c.length.toNat) .entry false)))) ∧
        (s.operating = true → s.sends (.entry c) = true →
          exec (.entryTaken .own) s =
            .next (finish s ((s.complete.removeId c.id).create
              (freshRec c.id c.length.toNat tag (1000 * c.length.toNat) .entry false))))) ∧
    (c.id = 0 ∨ c.length.toNat < 10 ∨ 650 < c.length.toNat → ∀ source : Addr, s.takes source = true →
      exec (.entryTaken (.heard source c)) s = .next (finish s s.acked)) ∧
    ((∀ r ∈ s.tt.table, r.id ≠ c.id) → s.removeId c.id = s) ∧
    (∀ r ∈ s.tt.table, r.id = c.id →
      s.removeId c.id =
        State.evaluate { s with
          tt.table := s.tt.table.filter fun x => decide (x.id ≠ c.id)
          tt.overflow := s.tt.overflow && !decide (s.tt.table.length = 24) })

/-- The placing of a new record: `run` is the records that hold its lead and the leads next below, and it stands directly
upstream of them, its lead lowered past them; it is not created below 0, above the range, past the forget position, or, with
TRANSIT_OVERFLOW, into a table of 24 (log 16 for the order of these tests). A correction sets one record's lead, limited to one
below the next record downstream and one above the next upstream, and evaluates the table. -/
def Obligations.RecordsKeepTheirOrder : Prop :=
  (∀ (s : State) (r : BoardRec) (a run b : List BoardRec), s.tt.table = a ++ run ++ b →
    (∀ x ∈ a, r.lead < x.lead) → (∀ (i : Nat) (x : BoardRec), run[i]? = some x → x.lead + i = r.lead) →
    (∀ x ∈ b, x.lead + run.length < r.lead) →
    (r.lead < run.length → s.create r = s) ∧
    (run.length ≤ r.lead →
      let new := { r with lead := r.lead - run.length }
      (8388607 < new.lead ∨ (s.cl.image.station.forgetPosition : Int) < new.trail → s.create r = s) ∧
      (new.lead ≤ 8388607 → new.trail ≤ (s.cl.image.station.forgetPosition : Int) →
        (24 ≤ s.tt.table.length → s.create r = { s with tt.overflow := true }) ∧
        (s.tt.table.length < 24 →
          s.create r = State.evaluate { s with tt.table := a ++ run ++ new :: b })))) ∧
  ∀ (s : State) (a b : List BoardRec) (r : BoardRec) (x : Nat) (f : BoardRec → BoardRec),
    s.tt.table = a ++ r :: b → s.tt.table.Pairwise (fun y z => z.lead < y.lead) →
    ∃ lead : Nat,
      s.correct a.length x f = State.evaluate { s with tt.table := a ++ { f r with lead := lead } :: b } ∧
      (∀ y ∈ a, lead < y.lead) ∧ (∀ y ∈ b, y.lead < lead) ∧
      ((∀ y ∈ a, min x 8388607 < y.lead) → (∀ y ∈ b, y.lead < min x 8388607) → lead = min x 8388607) ∧
      (∀ (d : BoardRec), a.getLast? = some d → d.lead ≤ min x 8388607 → lead = d.lead - 1) ∧
      (∀ (u : BoardRec), b.head? = some u → min x 8388607 ≤ u.lead → lead = u.lead + 1)

/-- The evaluation of the table: missed marks, removals with their count in BOARDS and the end of TRANSIT_OVERFLOW, the windows
with their counts, due counts, fume-span count. A record becomes served for a channel in a state that marks where the channel's
window opens with it inside or it begins to occupy the open window; every other mark stays. What a record's trail and its served
marks are, when it occupies a window, what is unserved present, how many tracking intervals it takes to reach a position at the
effective speed, and when it lies in a fume span. -/
def Obligations.TableIsEvaluated : Prop :=
  (∀ (c : ChanCfg) (r : BoardRec),
    occupies c r = true ↔
      c.mode ≠ .off ∧ (c.nozzle : Int) - c.leadMargin ≤ r.lead ∧ r.trail ≤ (c.nozzle : Int) + c.trailMargin) ∧
  (∀ (c : SpanCfg) (r : BoardRec), inSpan c r = true ↔ c.used = true ∧ c.first ≤ r.lead ∧ r.trail ≤ (c.last : Int)) ∧
  (∀ (r : BoardRec) (k : Chan),
    r.trail = (r.lead : Int) - 1000 * (r.length : Int) ∧ r.servedFor k = r.served.getLsbD k.val) ∧
  (∀ e lead x : Nat,
    (x ≤ lead → timeToReach e lead x = 0) ∧
    (lead < x → e = 0 → timeToReach e lead x = 65535) ∧
    (lead < x → 0 < e → ∀ n : Nat, x ≤ lead + n * e → (∀ m < n, lead + m * e < x) →
      timeToReach e lead x = min 65535 n)) ∧
  ∀ s : State,
    s.effectiveSpeed = (if s.tt.stale then 0 else s.tt.speed) ∧
    (∀ k : Chan,
      s.unservedPresent k = true ↔
        ∃ r ∈ s.tt.table, occupies s.cl.image.chans[k] r = true ∧ r.servedFor k = false) ∧
    let c := s.cl.image.station
    let marked := s.tt.table.map fun r =>
      { r with
        missed := r.missed ||
          (c.sensor && !c.entrySource && !r.sighted && decide (c.sensorPosition + 1000 * c.captureWindow < r.lead)) }
    let kept := marked.filter fun r => decide (r.trail ≤ (c.forgetPosition : Int)) && decide (r.lead < 8388607)
    let t := s.evaluate
    let serves := fun (r : BoardRec) (k : Chan) =>
      occupies s.cl.image.chans[k] r && s.ac[k].marksServed && t.tt.windows[k].isOpen &&
        (!s.tt.windows[k].isOpen || !r.inWin.getLsbD k.val)
    let inside := fun (r : BoardRec) (k : Chan) =>
      if s.cl.image.chans[k].mode = .off then r.inWin.getLsbD k.val else occupies s.cl.image.chans[k] r
    ByTable s t ∧
    t.tt.table =
      (kept.map fun r =>
        { r with
          served := r.served ||| setOf 4 allChans (serves r)
          inWin := setOf 4 allChans (inside r) }) ∧
    t.tt.totals[(0 : Fin 5)] = Nat.repeat Total.incr (s.tt.table.length - kept.length) s.tt.totals[(0 : Fin 5)] ∧
    t.tt.overflow = (s.tt.overflow && !(decide (24 ≤ s.tt.table.length) && decide (kept.length < 24))) ∧
    (∀ k : Chan, s.cl.image.chans[k].mode ≠ .off →
      t.tt.windows[k].count = kept.countP (occupies s.cl.image.chans[k]) ∧
      t.tt.windows[k].isOpen =
        (if s.tt.windows[k].isOpen then decide (0 < kept.countP (occupies s.cl.image.chans[k]))
        else kept.any fun r => occupies s.cl.image.chans[k] r && !r.servedFor k)) ∧
    (∀ k : Chan, s.cl.image.chans[k].mode = .off → t.tt.windows[k] = s.tt.windows[k]) ∧
    (∀ k : Chan,
      s.ac[k].marksServed =
        decide (s.ac[k].st = .armed ∨ s.ac[k].st = .delay ∨ s.ac[k].st = .on ∨ s.ac[k].st = .off ∨
          s.ac[k].st = .halting)) ∧
    (∀ i : LoopIx,
      t.tt.due[i] =
        min 3 (kept.countP fun r =>
          decide (r.trail ≤ (s.cl.image.loops[i].zoneEnd : Int)) &&
            decide (timeToReach s.effectiveSpeed r.lead s.cl.image.loops[i].zoneStart ≤
              100 * s.cl.image.loops[i].lookahead))) ∧
    t.tt.fume =
      kept.countP (fun r => inSpan s.cl.image.extraction.span1 r || inSpan s.cl.image.extraction.span2 r)

/-- The edges of the own sensor at a station that is not entry-source: a leading edge corrects the nearest candidate to the
sensor position, marks it sighted and reports its id, or reports id 0 where there is none, and starts the measurement; a
trailing edge ends it and corrects the nearest sighted record by its length, or does no more where there is none. -/
def Obligations.OwnSensorCorrects : Prop :=
  ∀ s : State, s.active = true → s.cl.image.station.sensor = true → s.cl.image.station.entrySource = false →
    let p := s.cl.image.station.sensorPosition
    let w := 1000 * s.cl.image.station.captureWindow
    let leadOk := fun (r : BoardRec) => !r.sighted && !r.missed && decide (distance r.lead p ≤ w)
    let u := { s with pins.bsens := true }
    (s.pins.bsens = false →
      ((∀ r ∈ s.tt.table, leadOk r = false) →
        exec .sightLeadingEdge s =
          .next (finish s
            { u.enqueue (.sight ⟨0, false, BitVec.ofNat 23 p, 0⟩) with tt.sightActive := true, tt.sightAcc := 0 })) ∧
      (∀ (i : Nat) (r : BoardRec), IsNearest s.tt.table leadOk (fun x => distance x.lead p) i r →
        exec .sightLeadingEdge s =
          .next (finish s
            { (u.correct i p fun x => { x with sighted := true }).enqueue
                (.sight ⟨r.id, false, BitVec.ofNat 23 p, 0⟩) with
              tt.sightActive := true, tt.sightAcc := 0 }))) ∧
    (s.pins.bsens = true → s.tt.sightActive = true →
      let m := max 10 (min 650 (s.tt.sightAcc / 1000))
      let d := fun (r : BoardRec) => distance ((r.lead : Int) - 1000 * m) p
      let trailOk := fun (r : BoardRec) => r.sighted && decide (d r ≤ w)
      let v := { s with pins.bsens := false, tt.sightActive := false }
      ((∀ r ∈ s.tt.table, trailOk r = false) → exec .sightTrailingEdge s = .next (finish s v)) ∧
      (∀ (i : Nat) (r : BoardRec), IsNearest s.tt.table trailOk d i r →
        exec .sightTrailingEdge s =
          .next (finish s
            ((if r.origin = .entry then v.correct i (p + 1000 * r.length) fun x => x
              else v.correct i (p + 1000 * m) fun x => { x with length := m }).enqueue
              (.sight ⟨r.id, true, BitVec.ofNat 23 p, BitVec.ofNat 16 m⟩)))))

/-- SIGHT frames taken: an own one of edge kind LEAD and id 0 creates the unnamed record, and any other own one changes no
record; a peer's LEAD corrects the record of its id within the capture window, ignores it outside, and creates one where the id
is not held or 0; a peer's TRAIL does so by its expected lead E, an M outside 10 to 650 doing nothing. -/
def Obligations.SightsTaken : Prop :=
  ∀ s : State,
    (∀ c : SightContent, s.operating = true → s.sends (.sight c) = true →
      (c.trail = false → c.id = 0 →
        exec .ownSightTaken s =
          .next (finish s (s.complete.create (freshRec 0 10 0 c.position.toNat .ownSight true)))) ∧
      (c.trail = true ∨ c.id ≠ 0 → exec .ownSightTaken s = .next (finish s s.complete))) ∧
    (∀ (source : Addr) (id : Byte) (position : BitVec 23) (measured : BitVec 16), s.takes source = true →
      let p := position.toNat
      let m := measured.toNat
      let w := 1000 * s.cl.image.station.captureWindow
      let held := s.tt.table.any fun r => decide (r.id = id)
      (id = 0 ∨ held = false →
        exec (.peerSightLeadTaken source id position 0) s =
          .next (finish s (s.acked.create (freshRec id 10 0 p .peerSight false)))) ∧
      (∀ (a b : List BoardRec) (r : BoardRec), id ≠ 0 → s.tt.table = a ++ r :: b → r.id = id →
        (∀ x ∈ a, x.id ≠ id) →
        (distance r.lead p ≤ w →
          exec (.peerSightLeadTaken source id position 0) s =
            .next (finish s (s.acked.correct a.length p fun x => x))) ∧
        (w < distance r.lead p →
          exec (.peerSightLeadTaken source id position 0) s = .next (finish s s.acked)) ∧
        (10 ≤ m → m ≤ 650 → distance r.lead ((p + 1000 * m : Nat) : Int) ≤ w →
          exec (.peerSightTrailTaken source id position measured) s =
            .next (finish s
              (if r.origin = .entry then s.acked.correct a.length (p + 1000 * r.length) fun x => x
              else s.acked.correct a.length (p + 1000 * m) fun x => { x with length := m }))) ∧
        (10 ≤ m → m ≤ 650 → w < distance r.lead ((p + 1000 * m : Nat) : Int) →
          exec (.peerSightTrailTaken source id position measured) s = .next (finish s s.acked))) ∧
      (10 ≤ m → m ≤ 650 → id ≠ 0 → held = false →
        exec (.peerSightTrailTaken source id position measured) s =
          .next (finish s (s.acked.create (freshRec id m 0 (p + 1000 * m) .peerSight false)))) ∧
      (10 ≤ m → m ≤ 650 → id = 0 →
        let e : Int := ((p + 1000 * m : Nat) : Int)
        let near := fun (r : BoardRec) => decide (r.id = 0) && decide (distance r.lead e ≤ w)
        ((∀ r ∈ s.tt.table, near r = false) →
          exec (.peerSightTrailTaken source id position measured) s =
            .next (finish s (s.acked.create (freshRec 0 m 0 (p + 1000 * m) .peerSight false)))) ∧
        (∀ (i : Nat) (r : BoardRec), IsNearest s.tt.table near (fun x => distance x.lead e) i r →
          exec (.peerSightTrailTaken source id position measured) s =
            .next (finish s (s.acked.correct i (p + 1000 * m) fun x => { x with length := m })))) ∧
      (m < 10 ∨ 650 < m →
        exec (.peerSightTrailTaken source id position measured) s = .next (finish s s.acked)))

/-- Speed: a pulse is counted at the speed-source station, up to 65,535; the window's expiry queues a SPEED of
floor(pulses x scale / 10), at most 1000, and starts the next window from 0. -/
def Obligations.SpeedIsMeasured : Prop :=
  ∀ s : State,
    (s.active = true → s.cl.image.station.speedSource = true →
      exec .encPulse s = .next (finish s { s with tt.pulses := min 65535 (s.tt.pulses + 1) })) ∧
    (s.cl.image.station.speedSource = false → exec .encPulse s = .next (finish s s)) ∧
    (s.tt.speedWindow.isSome = true →
      exec .speedWindowExpiry s =
        .next (finish s
          (State.enqueue { s with tt.pulses := 0, tt.speedWindow := some 100 }
            (.speed (BitVec.ofNat 16 (min 1000 (s.tt.pulses * s.cl.image.station.encoderScale / 10)))))))

/-- A SPEED taken, own or heard, becomes the current speed, at most 1000, ends SPEED_STALE and restarts the stale and source
timers; from another source than the last while the source timer runs it sets SPEED_CONFLICT and restarts its timer. -/
def Obligations.SpeedIsTaken : Prop :=
  ∀ (s : State) (source : Addr) (v : BitVec 16),
    let taken := fun (u : State) (a : Addr) =>
      let differs := u.tt.sourceTimer.isSome && decide (u.tt.source ≠ some a)
      { u with
        tt.speed := min 1000 v.toNat, tt.stale := false, tt.staleTimer := some 2000, tt.source := some a
        tt.sourceTimer := some 1000, tt.conflict := u.tt.conflict || differs
        tt.conflictTimer := if differs then some 1000 else u.tt.conflictTimer }
    (s.takes source = true →
      exec (.speedTaken (.heard source v)) s = .next (finish s (taken s.acked source))) ∧
    (s.operating = true → s.sends (.speed v) = true →
      exec (.speedTaken .own) s = .next (finish s (taken s.complete s.ownAddr)))

/-- At each tracking interval every lead, and each measurement in progress, grows by the effective speed, saturating at
8,388,607; the table is then evaluated, and the points on the tracker sample. -/
def Obligations.TrackingIntervalAdvances : Prop :=
  ∀ s : State, s.active = true → s.tt.interval.isSome = true →
    let e := if s.tt.stale then 0 else s.tt.speed
    exec .trackingIntervalExpiry s =
      .next (finish s
        ((State.evaluate
          { s with
            tt.table := s.tt.table.map fun r => { r with lead := min 8388607 (r.lead + e) }
            tt.entryAcc := if s.tt.entryActive then min 8388607 (s.tt.entryAcc + e) else s.tt.entryAcc
            tt.sightAcc := if s.tt.sightActive then min 8388607 (s.tt.sightAcc + e) else s.tt.sightAcc
            tt.interval := some 10 }).sample [some .tracking]))

/-! ### The actuation channels -/

/-- CH-START tests each named channel (owned, STOPPED, mode and state) and arms it, or blocks it where its permit is false; the
others stay; the most severe result answers. A BOARD channel that is armed with an unserved board present marks the boards in its
window served, and no other mark changes. A set that names a channel out of range is answered BAD-OPERAND. The permits are those
at the command (log 21). -/
def Obligations.ChStartStarts : Prop :=
  ∀ (s : State) (h : CmdHeader) (set : BitVec 8), s.commanded h = true →
    let result := fun (k : Chan) =>
      if s.cl.image.chans[k].levelOwned then ResultCode.owned
      else if s.ib.process = .stopped then .stopped
      else if s.cl.image.chans[k].mode = .off ∨ s.ac[k].st ≠ .idle then .refusedState
      else .done
    let marks := fun (k : Chan) =>
      set.getLsbD k.val && decide (result k = .done) && s.chanPermit k &&
        decide (s.cl.image.chans[k].mode = .board) && s.unservedPresent k
    (set &&& 0xf0#8 ≠ 0 →
      exec (.chStart h set) s = .next (finish s (s.acked.replied h codeChStart .badOperand []))) ∧
    (set &&& 0xf0#8 = 0 →
      ∃ (t : State) (r : ResultCode),
        exec (.chStart h set) s = .next (finish s (t.replied h codeChStart r [])) ∧ IsWorst set result r ∧
        t = { s.acked with ac := t.ac, tt.table := s.tt.table.map (BoardRec.marked s.cl.image marks) } ∧
        ∀ k : Chan,
          (set.getLsbD k.val = false ∨ result k ≠ .done → t.ac[k] = s.ac[k]) ∧
          (set.getLsbD k.val = true → result k = .done → s.chanPermit k = false →
            t.ac[k] =
              { s.ac[k] with
                st := .blocked, timer := none, saved := none, cause := .permit
                blockedMark := decide (1 ≤ s.tt.windows[k].count) }) ∧
          (set.getLsbD k.val = true → result k = .done → s.chanPermit k = true →
            t.ac[k] = s.ac[k].arms s.cl.image.chans[k] (s.unservedPresent k)))

/-- CH-HALT puts each named channel into IDLE with cause HALT, or into HALTING where a pulse is to be completed; IDLE and
HALTING stay; a steady pulse is counted; the level-owned channel named sets the feed inhibit; every named channel is DONE. -/
def Obligations.ChHaltHalts : Prop :=
  ∀ (s : State) (h : CmdHeader) (set : BitVec 8), s.commanded h = true →
    (set &&& 0xf0#8 ≠ 0 →
      exec (.chHalt h set) s = .next (finish s (s.acked.replied h codeChHalt .badOperand []))) ∧
    (set &&& 0xf0#8 = 0 →
      ∃ t : State,
        exec (.chHalt h set) s = .next (finish s (t.replied h codeChHalt .done [])) ∧
        t = { s.acked with ac := t.ac, tt.totals := t.tt.totals, lu.inhibit := t.lu.inhibit } ∧
        t.lu.inhibit =
          (s.lu.inhibit || allChans.any fun k => set.getLsbD k.val && s.cl.image.chans[k].levelOwned) ∧
        t.tt.totals[(0 : Fin 5)] = s.tt.totals[(0 : Fin 5)] ∧
        ∀ k : Chan,
          t.tt.totals[pulsesTotal k] =
            (if set.getLsbD k.val = true ∧ s.ac[k].st = .on ∧ s.cl.image.chans[k].onTime = 0
              then s.tt.totals[pulsesTotal k].incr else s.tt.totals[pulsesTotal k]) ∧
          t.ac[k] =
            if set.getLsbD k.val = false ∨ s.ac[k].st = .idle ∨ s.ac[k].st = .halting then s.ac[k]
            else if s.ac[k].st = .on ∧ s.cl.image.chans[k].onTime ≠ 0 ∧ s.cl.image.chans[k].completePulse = true then
              { s.ac[k] with st := .halting, cause := .halt }
            else s.ac[k].stopsIn s.cl.image.chans[k] .halt .idle)

/-- CH-HALT-SAVE suspends each named channel in ARMED, DELAY, ON or OFF into HELD with its context, and refuses the others. -/
def Obligations.ChHaltSaveHolds : Prop :=
  ∀ (s : State) (h : CmdHeader) (set : BitVec 8), s.commanded h = true →
    let result := fun (k : Chan) =>
      if s.cl.image.chans[k].levelOwned then ResultCode.owned
      else if s.ac[k].st = .armed ∨ s.ac[k].st = .delay ∨ s.ac[k].st = .on ∨ s.ac[k].st = .off then .done
      else .refusedState
    (set &&& 0xf0#8 ≠ 0 →
      exec (.chHaltSave h set) s = .next (finish s (s.acked.replied h codeChHaltSave .badOperand []))) ∧
    (set &&& 0xf0#8 = 0 →
      ∃ (t : State) (r : ResultCode),
        exec (.chHaltSave h set) s = .next (finish s (t.replied h codeChHaltSave r [])) ∧ IsWorst set result r ∧
        t = { s.acked with ac := t.ac } ∧
        ∀ k : Chan,
          t.ac[k] =
            if set.getLsbD k.val = true ∧ result k = .done then
              { s.ac[k] with
                st := .held, timer := none, saved := some ⟨s.ac[k].st, s.ac[k].timer, s.ac[k].pulses⟩ }
            else s.ac[k])

/-- CH-CONTINUE tests each named channel (owned, STOPPED, HELD) and resumes it: into BLOCKED where its permit is false, to the
end of its run with cause WINDOW where its BOARD window has emptied, by arming where it was held in ARMED, and else in the
phase, time left and pulse count saved, an ON phase with no time left expiring at once with its pulse counted. A BOARD channel
that resumes its run, or is armed with an unserved board present, marks the boards in its window served; no other mark and no
other total changes. The permits are those at the command (log 21). -/
def Obligations.ChContinueResumes : Prop :=
  ∀ (s : State) (h : CmdHeader) (set : BitVec 8), s.commanded h = true →
    let cfg := fun (k : Chan) => s.cl.image.chans[k]
    let result := fun (k : Chan) =>
      if (cfg k).levelOwned then ResultCode.owned
      else if s.ib.process = .stopped then .stopped
      else if s.ac[k].st ≠ .held then .notHeld
      else .done
    let context := fun (k : Chan) => s.ac[k].saved.getD ⟨s.ac[k].st, s.ac[k].timer, s.ac[k].pulses⟩
    let permitted := fun (k : Chan) => set.getLsbD k.val && decide (result k = .done) && s.chanPermit k
    let emptied := fun (k : Chan) =>
      decide ((cfg k).mode = .board) && decide (s.tt.windows[k].count = 0) &&
        decide ((context k).st = .delay ∨ (context k).st = .on ∨ (context k).st = .off)
    let ended := fun (k : Chan) =>
      decide ((context k).st = .on) && decide ((context k).left = some 0) && decide ((cfg k).onTime ≠ 0)
    let marks := fun (k : Chan) =>
      permitted k && decide ((cfg k).mode = .board) &&
        (if emptied k then (cfg k).rearmWindow && s.unservedPresent k
        else if (context k).st = .armed then s.unservedPresent k
        else true)
    (set &&& 0xf0#8 ≠ 0 →
      exec (.chContinue h set) s = .next (finish s (s.acked.replied h codeChContinue .badOperand []))) ∧
    (set &&& 0xf0#8 = 0 →
      ∃ (t : State) (r : ResultCode),
        exec (.chContinue h set) s = .next (finish s (t.replied h codeChContinue r [])) ∧ IsWorst set result r ∧
        t =
          { s.acked with
            ac := t.ac, tt.totals := t.tt.totals
            tt.table := s.tt.table.map (BoardRec.marked s.cl.image marks) } ∧
        t.tt.totals[(0 : Fin 5)] = s.tt.totals[(0 : Fin 5)] ∧
        ∀ k : Chan,
          let x := context k
          let restored : Channel :=
            { s.ac[k] with st := x.st, timer := x.left, pulses := x.pulses, saved := none }
          t.tt.totals[pulsesTotal k] =
            (if permitted k && !emptied k && ended k then s.tt.totals[pulsesTotal k].incr
            else s.tt.totals[pulsesTotal k]) ∧
          (set.getLsbD k.val = false ∨ result k ≠ .done → t.ac[k] = s.ac[k]) ∧
          (set.getLsbD k.val = true → result k = .done → s.chanPermit k = false →
            t.ac[k] =
              { s.ac[k] with
                st := .blocked, timer := none, saved := none, cause := .permit
                blockedMark := decide (1 ≤ s.tt.windows[k].count) }) ∧
          (permitted k = true → emptied k = true →
            t.ac[k] = s.ac[k].ends (cfg k) (s.unservedPresent k) .window) ∧
          (permitted k = true → emptied k = false → x.st = .armed →
            t.ac[k] = restored.arms (cfg k) (s.unservedPresent k)) ∧
          (permitted k = true → emptied k = false → ended k = true → t.ac[k] = restored.pulsed (cfg k) false) ∧
          (permitted k = true → emptied k = false → x.st ≠ .armed → ended k = false → t.ac[k] = restored))

/-- A phase expires: a delay or an off phase into ON; an on time counts its pulse, in the channel and in its total, and ends
the run with COUNT or SINGLE or begins the off phase (a steady channel has no on time to expire, R69); in HALTING the pulse is
counted and the channel becomes IDLE. A run that ends and rearms a BOARD channel with an unserved board present marks the boards
in its window served; no other mark changes. -/
def Obligations.PhasesExpire : Prop :=
  ∀ (s : State) (k : Chan), s.ac[k].timer.isSome = true →
    let c := s.cl.image.chans[k]
    let on : Channel :=
      { s.ac[k] with st := .on, timer := if c.onTime = 0 then none else some (c.onTime * c.onBase) }
    let counts := decide (c.countLimit ≠ 0 ∧ min 65535 (s.ac[k].pulses + 1) = c.countLimit)
    let rearms := if counts then c.rearmCount else decide (c.period = 0) && c.rearmSingle
    let marks := fun (j : Chan) =>
      decide (j = k) && rearms && decide (c.mode = .board) && s.unservedPresent k
    (s.ac[k].st = .delay → exec (.delayExpiry k) s = .next (finish s { s with ac := s.ac.set k on })) ∧
    (s.ac[k].st = .off → exec (.offPhaseExpiry k) s = .next (finish s { s with ac := s.ac.set k on })) ∧
    (s.ac[k].st = .halting →
      exec (.haltingExpiry k) s =
        .next (finish s { s with
          ac := s.ac.set k { s.ac[k] with st := .idle, timer := none, pulses := min 65535 (s.ac[k].pulses + 1) }
          tt.totals := s.tt.totals.set (pulsesTotal k) s.tt.totals[pulsesTotal k].incr })) ∧
    (s.ac[k].st = .on → c.onTime ≠ 0 →
      exec (.onTimeExpiry k) s =
        .next (finish s { s with
          ac := s.ac.set k (s.ac[k].pulsed c (s.unservedPresent k))
          tt.table := s.tt.table.map (BoardRec.marked s.cl.image marks)
          tt.totals := s.tt.totals.set (pulsesTotal k) s.tt.totals[pulsesTotal k].incr }))

/-- The input pins: a request assertion begins the run of an INPUT channel in ARMED and of no other; an end assertion ends the
run of an INPUT channel in DELAY, ON or OFF, the pulse of a steady one being counted in its total, and no other total changes; a
release and a change of a general input move the level alone. -/
def Obligations.InputsAct : Prop :=
  ∀ (s : State) (k : Chan),
    let c := s.cl.image.chans[k]
    (s.pins.chreq[k] = false → s.operating = true → c.mode = .input → s.ac[k].st = .armed →
      exec (.chreqAssertion k) s =
        .next (finish s { s with
          pins.chreq := s.pins.chreq.set k true, ac := s.ac.set k (s.ac[k].begins c) })) ∧
    (s.pins.chreq[k] = false → s.operating = false ∨ c.mode ≠ .input ∨ s.ac[k].st ≠ .armed →
      exec (.chreqAssertion k) s = .next (finish s { s with pins.chreq := s.pins.chreq.set k true })) ∧
    (s.pins.chend[k] = false → s.operating = true → c.mode = .input →
      (s.ac[k].st = .delay ∨ s.ac[k].st = .on ∨ s.ac[k].st = .off) →
      exec (.chendAssertion k) s =
        .next (finish s { s with
          pins.chend := s.pins.chend.set k true
          ac := s.ac.set k ((s.ac[k].stopsIn c .inputEnd .idle).ends c false .inputEnd)
          tt.totals :=
            if s.ac[k].st = .on ∧ c.onTime = 0 then
              s.tt.totals.set (pulsesTotal k) s.tt.totals[pulsesTotal k].incr
            else s.tt.totals })) ∧
    (s.pins.chend[k] = false →
      s.operating = false ∨ c.mode ≠ .input ∨ (s.ac[k].st ≠ .delay ∧ s.ac[k].st ≠ .on ∧ s.ac[k].st ≠ .off) →
      exec (.chendAssertion k) s = .next (finish s { s with pins.chend := s.pins.chend.set k true })) ∧
    exec (.requestOrEndInputRelease false k) s =
      .next (finish s { s with pins.chreq := s.pins.chreq.set k false }) ∧
    exec (.requestOrEndInputRelease true k) s =
      .next (finish s { s with pins.chend := s.pins.chend.set k false }) ∧
    ∀ (pin : Fin 2) (level : Bool),
      exec (.generalInputChange pin level) s = .next (finish s { s with pins.gin := s.pins.gin.set pin level })

/-- The channels follow their permits, their windows and the process state. In OPERATING each reads its permit: one that is false
blocks an ARMED or running channel and ends a HALTING pulse, one that is true arms a BLOCKED channel with the boards present
marked served; elsewhere nothing follows. An evaluation of the table begins the run of an ARMED BOARD channel where its window
opens, so where an unserved board stands in a closed one, and ends its run with WINDOW where the window is found empty. STOPPED
ends everything with cause STOP. A steady pulse that these end is counted. -/
def Obligations.ChannelsFollow : Prop :=
  (∀ s p : State, s.operating = false → s.channelsFollow p = s) ∧
  (∀ s p : State, s.operating = true →
    let t := s.channelsFollow p
    let marks := fun (k : Chan) => p.chanPermit k && decide (s.ac[k].st = .blocked)
    t =
      { s with
        ac := t.ac, tt.totals := t.tt.totals
        tt.table := s.tt.table.map (BoardRec.marked s.cl.image marks) } ∧
    t.tt.totals[(0 : Fin 5)] = s.tt.totals[(0 : Fin 5)] ∧
    ∀ k : Chan,
      let c := s.cl.image.chans[k]
      let x := s.ac[k]
      t.ac[k] =
        (if p.chanPermit k then (if x.st = .blocked then x.arms c false else x)
        else
          match x.st with
          | .armed | .delay | .on | .off =>
            { x.stopsIn c .permit .blocked with blockedMark := decide (1 ≤ s.tt.windows[k].count) }
          | .halting => { x with st := .idle, timer := none }
          | _ => x) ∧
      t.tt.totals[pulsesTotal k] =
        if p.chanPermit k = false ∧ x.st = .on ∧ c.onTime = 0 then s.tt.totals[pulsesTotal k].incr
        else s.tt.totals[pulsesTotal k]) ∧
  (∀ (s : State) (k : Chan),
    let t := s.evaluate
    let c := s.cl.image.chans[k]
    let x := s.ac[k]
    let opens := !s.tt.windows[k].isOpen && t.tt.windows[k].isOpen
    let ends :=
      decide (x.st = .delay ∨ x.st = .on ∨ x.st = .off) && decide (t.tt.windows[k].count = 0)
    t.ac[k] =
      (if c.mode = .board ∧ x.st = .armed ∧ opens = true then x.begins c
      else if c.mode = .board ∧ ends = true then (x.stopsIn c .window .idle).ends c false .window
      else x) ∧
    t.tt.totals[pulsesTotal k] =
      (if c.mode = .board ∧ ends = true ∧ x.st = .on ∧ c.onTime = 0 then s.tt.totals[pulsesTotal k].incr
      else s.tt.totals[pulsesTotal k]) ∧
    (∀ r ∈ s.tt.table, c.mode = .board → x.st = .armed → s.tt.windows[k].isOpen = false → occupies c r = true →
      r.servedFor k = false → r.trail ≤ (s.cl.image.station.forgetPosition : Int) → r.lead < 8388607 →
      t.ac[k] = x.begins c)) ∧
  ∀ s : State,
    s.setStopped =
      { s with ac := s.setStopped.ac, tt.totals := s.setStopped.tt.totals, ib.process := .stopped } ∧
    s.setStopped.tt.totals[(0 : Fin 5)] = s.tt.totals[(0 : Fin 5)] ∧
    ∀ k : Chan,
      s.setStopped.ac[k] =
        (if s.ac[k].st = .idle then s.ac[k] else s.ac[k].stopsIn s.cl.image.chans[k] .stop .idle) ∧
      s.setStopped.tt.totals[pulsesTotal k] =
        if s.ac[k].st = .on ∧ s.cl.image.chans[k].onTime = 0 then s.tt.totals[pulsesTotal k].incr
        else s.tt.totals[pulsesTotal k]

/-! ### The heat loops -/

/-- A conversion every 100 ms: a reading below 5000 less the TC offset becomes PV, a reading of 5000 leaves it; three open
samples in a row set TC_OPEN and three good ones clear it; the input of a ganged HL1 is not converted; the points on TC_OPEN
sample. -/
def Obligations.TemperatureIsConverted : Prop :=
  ∀ (s : State) (raw0 raw1 : Fin 5001), s.active = true → s.hl.tcTimer.isSome = true →
    let converted := fun (i : LoopIx) (raw : Nat) =>
      let l := s.hl.loops[i]
      if raw = 5000 then
        { l with openCnt := min 3 (l.openCnt + 1), goodCnt := 0, tcOpen := l.tcOpen || decide (2 ≤ l.openCnt) }
      else
        { l with
          pv := min 5000 ((raw : Int) - s.cl.image.loops[i].tcOffset).toNat
          goodCnt := min 3 (l.goodCnt + 1), openCnt := 0, tcOpen := l.tcOpen && decide (l.goodCnt < 2) }
    exec (.tcConversion raw0 raw1) s =
      .next (finish s
        (State.sample
          { s with
            hl.tcTimer := some 100
            hl.loops :=
              #v[converted 0 raw0.val,
                if s.cl.image.loops[(1 : LoopIx)].ganged then s.hl.loops[(1 : LoopIx)] else converted 1 raw1.val] }
          [some .conversion]))

/-- A crossing within 4 ms of the last counted one is noise; any other is counted: it restarts the zero-cross timer, and it
begins control periods that are off where none has begun or MAINS_LOST was true, or else advances each running period by one
half-cycle. The zero-cross timer's expiry is MAINS_LOST. An expiry still due from the crossing before comes first, as an event of
its own (logs 11 and 12); where that brings a reset, the crossing or the loss of mains finds nothing to act on. -/
def Obligations.CrossingsAreCounted : Prop :=
  ∀ s : State, s.active = true →
    let u := if s.periodOver then finish s s.periodsExpire else s
    (∀ sinceLast : Nat, s.hl.lastCrossing.isSome = true → sinceLast < 4000 →
      exec (.zeroCrossing sinceLast) s = .next (finish s s)) ∧
    (∀ sinceLast : Nat, s.hl.lastCrossing = none ∨ 4000 ≤ sinceLast →
      let next := fun (i : LoopIx) =>
        let c := u.cl.image.loops[i]
        if u.hl.mainsLost = true ∨ u.hl.begun = false then { u.hl.loops[i] with pos := 0, half := 0 }
        else if c.inUse = true ∧ u.ganged i = false then { u.hl.loops[i] with pos := min 100 (u.hl.loops[i].pos + 1) }
        else u.hl.loops[i]
      (u.active = true →
        exec (.zeroCrossing sinceLast) s =
          .next (finish u
            { u with
              hl.zcTimer := some 50, hl.lastCrossing := some u.now.ms, hl.mainsLost := false, hl.begun := true
              hl.loops := #v[next 0, next 1] })) ∧
      (u.active = false → exec (.zeroCrossing sinceLast) s = .next (finish u u))) ∧
    (s.hl.zcTimer.isSome = true →
      let lost := fun (i : LoopIx) =>
        { u.hl.loops[i] with
          integ := 0, carry := 0, clamp := .unclamped, c := false, v := false, l := false, half := 0 }
      (u.active = true →
        exec .mainsLost s =
          .next (finish u
            { u with hl.mainsLost := true, hl.zcTimer := none, hl.begun := false, hl.loops := #v[lost 0, lost 1] })) ∧
      (u.active = false → exec .mainsLost s = .next (finish u u)))

/-- The control periods expire where a crossing has ended their 100th half-cycle, and at no other half-cycle: CONTROL_PERIOD_EXPIRY
does nothing then (log 12). They expire together on one share basis: each loop in use computes P, I, u and its flags, announces its
demand, and forms its output under its grant and its half-cycles with the carry; a loop forced off (as it stands before the
event, log 21) makes the reduced computation; a ganged HL1 takes HL0's u and flags; the points on loop flags sample. -/
def Obligations.ControlPeriodIsComputed : Prop :=
  (∀ s : State,
    (s.periodOver = true ↔
      (s.active = true ∧ s.hl.mainsLost = false ∧ s.hl.begun = true ∧ ∃ i : LoopIx, s.cl.image.loops[i].inUse = true) ∧
        ∃ i : LoopIx, 100 ≤ s.hl.loops[i].pos) ∧
    (s.periodOver = false → exec .controlPeriodExpiry s = .next (finish s s))) ∧
  ∀ s : State, s.periodOver = true →
    let cfg := fun (i : LoopIx) => s.cl.image.loops[i]
    let shared := fun (i : LoopIx) (l : HeatLoop) =>
      let d := l.u * (cfg i).rated / 1000
      let g := grantOf s.cl.image.station (basisOf s) i d
      let isFull := match s.ownEntry i with
        | some e => decide (g = e.demand)
        | none => false
      let out := if isFull then l.u else min l.u (g * 1000 / (cfg i).rated)
      { l with lastD := d, uOut := out, l := !isFull, half := (out + l.carry) / 10, carry := (out + l.carry) % 10 }
    let reduced := fun (l : HeatLoop) (n z : Bool) =>
      { l with
        lastD := 0, u := 0, uOut := 0, half := 0, carry := 0, c := false, v := false, l := false, clamp := .unclamped
        n := n, z := z }
    let computed := fun (i : LoopIx) (l : HeatLoop) =>
      let e : Int := (l.sp : Int) - l.pv
      let z := decide (e.natAbs ≤ (cfg i).deadband)
      if s.forcedOff i then reduced l (decide (e < 0)) z
      else
        let held := decide ((0 < e ∧ (l.clamp = .high ∨ l.l = true)) ∨ (e < 0 ∧ l.clamp = .low))
        let sum : Int := if held then l.integ else l.integ + (cfg i).ki * e
        let integ := (max 0 (min 100000 sum)).toNat
        let raw : Int := Int.tdiv ((cfg i).kp * e) 10 + (integ / 100 : Nat) + ((cfg i).fBoard * s.tt.due[i] : Nat)
        shared i
          { l with
            integ := integ, v := !held && decide (sum < 0 ∨ 100000 < sum), u := (max 0 (min 1000 raw)).toNat
            clamp := if raw < 0 then .low else if 1000 < raw then .high else .unclamped
            c := decide (raw < 0 ∨ 1000 < raw), n := decide (e < 0), z := z }
    let l0 := if (cfg 0).inUse then computed 0 s.hl.loops[(0 : LoopIx)] else s.hl.loops[(0 : LoopIx)]
    let l1 :=
      let l := s.hl.loops[(1 : LoopIx)]
      if (cfg 1).inUse then
        if (cfg 1).ganged then
          if s.forcedOff 1 then reduced l l0.n l0.z
          else shared 1 { l with u := l0.u, n := l0.n, z := l0.z, c := l0.c, v := l0.v }
        else computed 1 l
      else l
    let announced := fun (i : LoopIx) (l : HeatLoop) (u : State) =>
      if (cfg i).inUse then
        u.enqueue (.demand
          { station := s.ownAddr.setWidth 8, loop := BitVec.ofNat 8 i.val, cls := BitVec.ofNat 8 (cfg i).cls
            demand := BitVec.ofNat 16 l.lastD })
      else u
    let begun := fun (i : LoopIx) (l : HeatLoop) =>
      if (cfg i).inUse = true ∧ s.ganged i = false then { l with pos := 0 } else l
    exec .controlPeriodExpiry s =
      .next (finish s
        (State.sample
          { announced 1 l1 (announced 0 l0 s) with
            bu.basis := some (basisOf s), hl.loops := #v[begun 0 l0, begun 1 l1] }
          s.loopUpdates))

/-- LOOP-SETPOINT: a loop number above 1 and a ganged HL1 are answered BAD-OPERAND, a loop not in use REFUSED-STATE; else SP
becomes the value, or the nearer of SP_min and SP_max with CLAMPED, and the REPLY carries the setpoint now held. -/
def Obligations.LoopSetpointSets : Prop :=
  ∀ (s : State) (h : CmdHeader) (value : BitVec 16), s.commanded h = true →
    (∀ loop : Byte, 2 ≤ loop.toNat →
      exec (.loopSetpoint h loop value) s = .next (finish s (s.acked.replied h codeLoopSetpoint .badOperand []))) ∧
    ∀ i : LoopIx,
      let c := s.cl.image.loops[i]
      let answered := fun (sp : Nat) (r : ResultCode) =>
        exec (.loopSetpoint h (BitVec.ofNat 8 i.val) value) s =
          .next (finish s
            (State.replied { s.acked with hl.loops := s.hl.loops.set i { s.hl.loops[i] with sp := sp } } h codeLoopSetpoint r
              [BitVec.ofNat 8 (sp / 256), BitVec.ofNat 8 sp]))
      (i = 1 ∧ c.ganged = true →
        exec (.loopSetpoint h (BitVec.ofNat 8 i.val) value) s =
          .next (finish s (s.acked.replied h codeLoopSetpoint .badOperand []))) ∧
      (¬(i = 1 ∧ c.ganged = true) → c.inUse = false →
        exec (.loopSetpoint h (BitVec.ofNat 8 i.val) value) s =
          .next (finish s (s.acked.replied h codeLoopSetpoint .refusedState []))) ∧
      (¬(i = 1 ∧ c.ganged = true) → c.inUse = true → c.spMin ≤ c.spMax →
        (value.toNat < c.spMin → answered c.spMin .clamped) ∧ (c.spMax < value.toNat → answered c.spMax .clamped) ∧
        (c.spMin ≤ value.toNat → value.toNat ≤ c.spMax → answered value.toNat .done))

/-- LOOP-ENABLE and LOOP-DISABLE act on each named loop by itself; a loop not in use is REFUSED-STATE and a set that names
another loop BAD-OPERAND. A loop disabled is forced off at once with its integral 0. A running loop that is forced off is off
at once, with count, carry, C, V, L and clamp record cleared and its integral held. -/
def Obligations.LoopsAreSwitched : Prop :=
  (∀ (s : State) (h : CmdHeader) (set : BitVec 8), s.commanded h = true →
    let named := fun (i : LoopIx) => set.getLsbD i.val && s.cl.image.loops[i].inUse
    let r : ResultCode :=
      if ∃ i : LoopIx, set.getLsbD i.val = true ∧ s.cl.image.loops[i].inUse = false then .refusedState else .done
    let enabled := fun (i : LoopIx) =>
      if named i then { s.hl.loops[i] with enabled := true } else s.hl.loops[i]
    let disabled := fun (i : LoopIx) =>
      if named i && s.hl.loops[i].enabled then
        { s.hl.loops[i] with
          enabled := false, integ := 0, half := 0, carry := 0, c := false, v := false, l := false, clamp := .unclamped }
      else s.hl.loops[i]
    (set &&& 0xfc#8 ≠ 0 →
      exec (.loopEnable h set) s = .next (finish s (s.acked.replied h codeLoopEnable .badOperand [])) ∧
      exec (.loopDisable h set) s = .next (finish s (s.acked.replied h codeLoopDisable .badOperand []))) ∧
    (set &&& 0xfc#8 = 0 →
      exec (.loopEnable h set) s =
        .next (finish s
          (State.replied { s.acked with hl.loops := #v[enabled 0, enabled 1] } h codeLoopEnable r [])) ∧
      exec (.loopDisable h set) s =
        .next (finish s
          (State.replied { s.acked with hl.loops := #v[disabled 0, disabled 1] } h codeLoopDisable r [])))) ∧
  ∀ (s : State) (i : LoopIx),
    (s.loopFollows i).hl.loops[i] =
      if s.loopRuns i = true ∧ s.forcedOff i = true then
        { s.hl.loops[i] with half := 0, carry := 0, c := false, v := false, l := false, clamp := .unclamped }
      else s.hl.loops[i]

/-! ### The budget unit -/

/-- A DEMAND, own or heard, whose content passes the checks refreshes the entry of its key, creates it, or is refused by a full
table; one that fails them is ignored. -/
def Obligations.DemandIsTaken : Prop :=
  ∀ (s : State) (source : Addr) (c : DemandContent),
    let ok := fun (a : Addr) =>
      decide (c.station = a.setWidth 8 ∧ c.loop.toNat ≤ 1 ∧ c.cls.toNat ≤ 1 ∧ c.demand.toNat ≤ 2000)
    let taken := fun (u : State) (a : Addr) =>
      let e : DemandEntry :=
        { station := a.toNat, loop := Fin.ofNat 2 c.loop.toNat, cls := c.cls.toNat, demand := c.demand.toNat, age := 3000 }
      let keyed := fun (x : DemandEntry) => decide (x.station = e.station ∧ x.loop = e.loop)
      if ok a then
        if u.bu.table.any keyed then { u with bu.table := u.bu.table.map fun x => if keyed x then e else x }
        else if u.bu.table.length < 32 then { u with bu.table := u.bu.table ++ [e] }
        else { u with bu.tableFull := true, bu.refusalTimer := some 3000 }
      else u
    (s.takes source = true →
      exec (.demandTaken (.heard source c)) s = .next (finish s (taken s.acked source))) ∧
    (s.operating = true → s.sends (.demand c) = true →
      exec (.demandTaken .own) s = .next (finish s (taken s.complete s.ownAddr)))

/-- A grant: in safe mode the least of the last announced demand and the safe grant; else the whole demand, or its share of the
budget (class 0) or of the remainder (class 1), or 0. The own grants of one basis together stay within the budget, and none
exceeds the demand it was computed on. -/
def Obligations.GrantsStayWithinTheBudget : Prop :=
  ∀ (s : State) (d0 d1 : Nat),
    let c := s.cl.image.station
    let b := basisOf s
    let g := grantOf c b
    let g0 := g (0 : LoopIx) d0
    let g1 := g (1 : LoopIx) d1
    (b.safe = true → g0 = min d0 c.safeGrant ∧ g1 = min d1 c.safeGrant) ∧
    (b.safe = false → ∀ (i : LoopIx) (d : Nat) (e : DemandEntry), s.ownEntry i = some e →
      (c.budget ≤ b.s0 → e.cls = 0 → g i d = e.demand * c.budget / b.s0) ∧
      (c.budget ≤ b.s0 → e.cls ≠ 0 → g i d = 0) ∧
      (b.s0 < c.budget → e.cls = 0 ∨ b.s1 ≤ c.budget - b.s0 → g i d = e.demand) ∧
      (b.s0 < c.budget → e.cls ≠ 0 → c.budget - b.s0 < b.s1 →
        g i d = e.demand * (c.budget - b.s0) / b.s1) ∧
      g i d ≤ e.demand) ∧
    (DemandsOk s → 2 * c.safeGrant ≤ c.budget → g0 + g1 ≤ c.budget)

/-! ### The level unit -/

/-- A level sample: a valid one becomes the raw level and counts toward the end of LEVEL_INVALID, an invalid one sets it; a
fresh one forms the compensated level and the feed request, whose fall clears the inhibit; the points on the level conditions
sample. -/
def Obligations.LevelIsSampled : Prop :=
  ∀ (s : State) (reading : BitVec 10),
    let c := s.cl.image.level
    let x := reading.toInt
    let l := s.lu
    (s.active = true → c.inUse = true → l.levelTimer.isSome = true →
      let valid := decide (-500 ≤ x ∧ x ≤ 500)
      let invalid := !valid || (l.invalid && decide (l.valid < 2))
      let fresh := valid && !invalid && l.settleTimer.isNone
      let comp := if fresh then (if l.wave then max (-500) (min 500 (x + c.waveOffset)) else x) else l.comp
      let request :=
        if fresh then (if comp < c.feedOn then true else if comp < c.feedOff then l.request else false) else l.request
      exec (.levelSample reading) s =
        .next (finish s
          (State.sample
            { s with
              lu.raw := if valid then x else l.raw
              lu.valid := if !valid then 0 else if l.invalid then (if invalid then l.valid + 1 else 0) else l.valid
              lu.invalid := invalid, lu.comp := comp, lu.request := request
              lu.inhibit := l.inhibit && (request || !l.request), lu.levelTimer := some 100 }
            [some .level])))

/-- The feeder follows the allowing of feeding: from REST it starts the feed timer and its channel, FEEDING where the channel
was IDLE and WAITING where it was not; WAITING starts again once the channel is IDLE; where feeding ceases to be allowed it
halts its channel and rests. LEVEL-FEED-RESET clears FEED_TIMEOUT and the inhibit and reports what it found. -/
def Obligations.FeederFollows : Prop :=
  (∀ (s : State) (k : Chan), ownedChanOf s.cl.image = some k → s.cl.image.chans[k].mode = .free →
    let c := s.cl.image.chans[k]
    let x := s.ac[k]
    let started : Channel :=
      if x.st ≠ .idle then x
      else if s.chanPermit k then x.arms c false
      else { x with st := .blocked, timer := none, saved := none, cause := .permit, blockedMark := s.windowOccupied k }
    let halted : Channel :=
      if x.st = .idle ∨ x.st = .halting then x
      else if x.st = .on ∧ c.onTime ≠ 0 ∧ c.completePulse = true then { x with st := .halting, cause := .halt }
      else x.stopsIn c .halt .idle
    let feeder : Feeder := if x.st = .idle then .feeding else .waiting
    ByReaders s s.feedFollows ∧
    (s.feedAllowed = true → s.lu.feeder = .rest →
      s.feedFollows.lu = { s.lu with feeder := feeder, feedTimer := some (1000 * s.cl.image.level.maxFeed) } ∧
      s.feedFollows.ac = s.ac.set k started) ∧
    (s.feedAllowed = true → s.lu.feeder = .feeding → s.feedFollows = s) ∧
    (s.feedAllowed = true → s.lu.feeder = .waiting →
      s.feedFollows.lu = { s.lu with feeder := feeder } ∧ s.feedFollows.ac = s.ac.set k started) ∧
    (s.feedAllowed = false → s.lu.feeder = .rest → s.feedFollows = s) ∧
    (s.feedAllowed = false → s.lu.feeder ≠ .rest →
      s.feedFollows.lu = { s.lu with feeder := .rest, feedTimer := none } ∧ s.feedFollows.ac = s.ac.set k halted)) ∧
  ∀ (s : State) (h : CmdHeader), s.commanded h = true →
    (s.cl.image.level.inUse = true →
      exec (.levelFeedReset h) s =
        .next (finish s
          (State.replied { s.acked with lu.feedTimeout := false, lu.inhibit := false } h codeLevelFeedReset .done
            [(BitVec.ofInt 16 s.lu.comp).extractLsb' 8 8, (BitVec.ofInt 16 s.lu.comp).extractLsb' 0 8,
              BitVec.ofNat 8 (s.lu.request.toNat + 2 * s.lu.feedTimeout.toNat + 4 * s.lu.inhibit.toNat)]))) ∧
    (s.cl.image.level.inUse = false →
      exec (.levelFeedReset h) s = .next (finish s (s.acked.replied h codeLevelFeedReset .refusedState [])))

/-! ### The extraction unit -/

/-- At each expiry of its timer the extraction unit takes the airflow, at most 2000, moves the output one ramp step toward the
target, and evaluates AIRFLOW_LOW and FILTER_LOADED; the target follows the fume-span count and the watched wave. -/
def Obligations.ExtractionSteps : Prop :=
  ∀ s : State,
    let c := s.cl.image.extraction
    (∀ reading : Nat, s.active = true → c.inUse = true → s.xu.timer.isSome = true →
      let airflow := min 2000 reading
      let output :=
        if s.xu.target ≤ s.xu.output then
          (if s.xu.output - s.xu.target ≤ c.rampStep then s.xu.target else s.xu.output - c.rampStep)
        else if s.xu.target - s.xu.output ≤ c.rampStep then s.xu.target
        else s.xu.output + c.rampStep
      exec (.extractionTimerExpiry reading) s =
        .next (finish s
          (State.sample
            { s with
              xu.airflow := airflow, xu.output := output, xu.timer := some 100
              xu.low := decide (c.activeThreshold ≤ output ∧ airflow < c.minAirflow)
              xu.loaded := decide (output = 1000 ∧ airflow < c.clogThreshold) }
            [some .extraction]))) ∧
    (s.active = true → c.inUse = true →
      s.extractionFollows =
        { s with
          xu.watched := s.watchedWave
          xu.target := min 1000 (c.base + c.perBoard * s.tt.fume + if s.watchedWave then c.boost else 0) }) ∧
    (c.watchedStation = 0 → s.watchedWave = false) ∧
    (c.watchedStation ≠ 0 → c.watchedStation = s.ownAddr.toNat → s.watchedWave = s.ac[c.watchedChan].running) ∧
    (c.watchedStation ≠ 0 → c.watchedStation ≠ s.ownAddr.toNat →
      s.watchedWave =
        match s.peer (BitVec.ofNat 5 c.watchedStation) with
        | none => true
        | some e => !e.stateSeen || e.silent || e.running.getLsbD c.watchedChan.val)

/-! ### The monitor block -/

/-- At a sampling each point in use whose event it is finds its condition present or absent and moves by its state: three to 24
present samples in a row raise it, one absent sample clears or ends it. Each point that enters RAISED, or NORMAL from a cleared
or acknowledged alarm, queues an ALARM, lower-numbered first; an entry to RAISED asserts the alarm line. All points of one event
sample the same values (log 9); a STATE that waits is queued anew behind each ALARM (log 19). What each analog source reads: 0
for LEVEL, AIRFLOW and FANOUT where their block is not in use, and HL0's PV for PV1 where HL1 is ganged. -/
def Obligations.PointsSample : Prop :=
  (∀ s : State,
    let img := s.cl.image
    s.analog .gain0 = s.mb.gain0 ∧ s.analog .gain1 = s.mb.gain1 ∧
    s.analog .pv0 = s.hl.loops[(0 : LoopIx)].pv ∧
    s.analog .pv1 =
      (if img.loops[(1 : LoopIx)].ganged then s.hl.loops[(0 : LoopIx)].pv else s.hl.loops[(1 : LoopIx)].pv) ∧
    s.analog .level = (if img.level.inUse then s.lu.comp else 0) ∧
    s.analog .airflow = (if img.extraction.inUse then (s.xu.airflow : Int) else 0) ∧
    s.analog .fanOutput = (if img.extraction.inUse then (s.xu.output : Int) else 0)) ∧
  ∀ (s : State) (events : List (Option Update)),
    let t := s.sample events
    let samples := fun (i : Ix8) =>
      s.cl.image.points[i].inUse && decide (pointUpdate s.cl.image.points[i] ∈ events)
    let present := fun (i : Ix8) =>
      let c := s.cl.image.points[i]
      let v := s.analog c.analog
      let m := s.mb.points[i].memory
      if c.isSignal then s.select c.signal
      else if c.below then decide (v < c.threshold ∨ (m = true ∧ v < c.threshold + c.hysteresis))
      else decide (c.threshold < v ∨ (m = true ∧ c.threshold - c.hysteresis < v))
    let moved : Ix8 → PointState × Nat := fun i =>
      let n := s.mb.points[i].count + 1
      match s.mb.points[i].st, present i with
      | .normal, true => (PointState.qualifying, 1)
      | .normal, false => (.normal, s.mb.points[i].count)
      | .qualifying, true => if n = s.cl.image.points[i].qualification then (.raised, 0) else (.qualifying, n)
      | .qualifying, false => (.normal, 0)
      | .raised, true => (.raised, s.mb.points[i].count)
      | .raised, false => (.clearedUnacked, 0)
      | .raisedAcked, true => (.raisedAcked, s.mb.points[i].count)
      | .raisedAcked, false => (.normal, 0)
      | .clearedUnacked, true => (.raised, 0)
      | .clearedUnacked, false => (.clearedUnacked, s.mb.points[i].count)
    let raises := fun (i : Ix8) => samples i && decide (s.mb.points[i].st ≠ .raised ∧ (moved i).1 = .raised)
    let clears := fun (i : Ix8) => samples i && decide (s.mb.points[i].st = .raisedAcked ∧ (moved i).1 = .normal)
    let asserted := s.operating && all8.any raises
    BySampling s t ∧
    (∀ i : Ix8,
      t.mb.points[i] =
        if samples i then
          { st := (moved i).1, count := (moved i).2
            memory := if s.cl.image.points[i].isSignal then s.mb.points[i].memory else present i }
        else s.mb.points[i]) ∧
    t.mb.alarm = (if asserted then .asserted else s.mb.alarm) ∧
    t.mb.gapTimer = (if asserted then none else s.mb.gapTimer) ∧
    t.li =
      (all8.foldl
        (fun (u : State) (i : Ix8) =>
          if raises i || clears i then
            let a := u.enqueue (.alarm { point := i, raised := raises i, trip := s.cl.image.points[i].trip })
            if a.li.queue.any fun e => isStateFrame e.frame then a.enqueue (.state a.stateContent) else a
          else u)
        { s with mb.points := t.mb.points }).li

/-- The monitor block's timers: the monitor timer's expiry converts GAIN0 and GAIN1 and samples; the gap's asserts the line
again or deasserts it; the status timer's queues a STATE. -/
def Obligations.MonitorTimersExpire : Prop :=
  ∀ s : State,
    (∀ gain0 gain1 : Fin 1001, s.active = true → s.mb.monitorTimer.isSome = true →
      exec (.monitorTimerExpiry gain0 gain1) s =
        .next (finish s
          (State.sample { s with mb.gain0 := gain0.val, mb.gain1 := gain1.val, mb.monitorTimer := some 100 } [none]))) ∧
    (s.mb.alarm = .gap →
      exec .gapTimerExpiry s =
        .next (finish s
          { s with
            mb.gapTimer := none
            mb.alarm :=
              if ∃ i : Ix8, s.mb.points[i].st = .raised ∨ s.mb.points[i].st = .clearedUnacked then .asserted
              else .deasserted })) ∧
    (s.operating = true → s.mb.statusTimer.isSome = true →
      exec .statusTimerExpiry s =
        .next (finish s (State.enqueue { s with mb.statusTimer := some 250 } (.state s.stateContent))))

/-- The peer view: a STATE sets the entry of its source and restarts its silence timer; a JOIN makes an absent entry present and
sets the join mark where it is the own one in JOINING; an ALARM changes the raised set of a present entry; the silence timer's
expiry makes the entry silent. -/
def Obligations.PeersAreHeard : Prop :=
  ∀ (s : State) (a : Addr),
    let put := fun (u : State) (c : StateContent) =>
      let e : PeerEntry :=
        { addr := a, stateSeen := true, raised := c.raised, running := c.running, silence := some 1000, silent := false }
      if ∃ x ∈ u.mb.peers, x.addr = a then { u with mb.peers := u.mb.peers.map fun x => if x.addr = a then e else x }
      else { u with mb.peers := u.mb.peers ++ [e] }
    let joined := fun (u : State) =>
      if ∃ x ∈ u.mb.peers, x.addr = a then u
      else
        { u with
          mb.peers :=
            u.mb.peers ++
              [{ addr := a, stateSeen := false, raised := 0, running := 0, silence := some 1000, silent := false }] }
    let alarmed := fun (u : State) (c : AlarmContent) =>
      let bit : BitVec 8 := BitVec.twoPow 8 c.point.val
      { u with
        mb.peers := u.mb.peers.map fun x =>
          if x.addr = a then { x with raised := if c.raised then x.raised ||| bit else x.raised &&& ~~~bit } else x }
    (s.cl.station = .joining ∨ s.cl.station = .operating →
      (∀ c : StateContent,
        (s.hears a = true → exec (.stateTaken (.heard a c)) s = .next (finish s (put s.acked c))) ∧
        (s.sends (.state c) = true → s.ownAddr = a →
          exec (.stateTaken .own) s = .next (finish s (put s.complete c)))) ∧
      ∀ c : JoinContent,
        (s.hears a = true → exec (.joinTaken (.heard a c)) s = .next (finish s (joined s.acked))) ∧
        (s.sends (.join c) = true → s.ownAddr = a →
          exec (.joinTaken .own) s =
            .next (finish s
              { joined s.complete with
                cl.joinMark := s.cl.joinMark || decide (s.cl.station = .joining) }))) ∧
    (∀ c : AlarmContent,
      (s.takes a = true → exec (.alarmTaken (.heard a c)) s = .next (finish s (alarmed s.acked c))) ∧
      (s.operating = true → s.sends (.alarm c) = true → s.ownAddr = a →
        exec (.alarmTaken .own) s = .next (finish s (alarmed s.complete c)))) ∧
    exec (.silenceTimerExpiry a) s =
      .next (finish s
        { s with
          mb.peers := s.mb.peers.map fun x =>
            if x.addr = a ∧ x.silence.isSome = true then { x with silence := none, silent := true } else x })

/-- ALARM-ACK makes each named RAISED point RAISED-ACKED and each named CLEARED-UNACKED point NORMAL with an ALARM queued; where
it takes a point out of those states the line becomes deasserted, or enters a gap of 50 ms while another remains; a gap runs on.
A STATE that waits is queued anew behind each ALARM (log 19). The REPLY is DONE with the raised and unacknowledged sets after
it. -/
def Obligations.AlarmsAreAcknowledged : Prop :=
  ∀ (s : State) (h : CmdHeader) (set : BitVec 8), s.commanded h = true →
    let after := fun (i : Ix8) =>
      let p := s.mb.points[i]
      if set.getLsbD i.val = false then p
      else if p.st = .raised then { p with st := .raisedAcked, count := 0 }
      else if p.st = .clearedUnacked then { p with st := .normal, count := 0 }
      else p
    let alarmed := fun (p : Point) => decide (p.st = .raised ∨ p.st = .clearedUnacked)
    let takes := all8.any fun (i : Ix8) => set.getLsbD i.val && alarmed s.mb.points[i]
    let remain := all8.any fun (i : Ix8) => alarmed (after i)
    ∃ t : State,
      exec (.alarmAck h set) s = .next (finish s (t.replied h codeAlarmAck .done [t.raisedSet, t.unackedSet])) ∧
      BySampling s.acked t ∧ (∀ i : Ix8, t.mb.points[i] = after i) ∧
      t.mb.alarm =
        (if takes = false ∨ s.mb.alarm = .gap then s.mb.alarm else if remain then .gap else .deasserted) ∧
      t.mb.gapTimer =
        (if takes = true ∧ s.mb.alarm ≠ .gap ∧ remain = true then some 50 else s.mb.gapTimer) ∧
      t.li =
        (all8.foldl
          (fun (u : State) (i : Ix8) =>
            if set.getLsbD i.val = true ∧ s.mb.points[i].st = .clearedUnacked then
              let a := u.enqueue (.alarm { point := i, raised := false, trip := s.cl.image.points[i].trip })
              if a.li.queue.any fun e => isStateFrame e.frame then a.enqueue (.state a.stateContent) else a
            else u)
          { s.acked with mb.points := t.mb.points }).li

/-! ### The interlock block -/

/-- PERMIT-GRANT and PERMIT-WITHDRAW apply the withdraw set first and the grant set second, and answer DONE with the granted set
as it then stands; nothing else changes. -/
def Obligations.PermitsChange : Prop :=
  ∀ (s : State) (h : CmdHeader) (grant withdraw : BitVec 16), s.commanded h = true →
    let answered := fun (g : BitVec 16) (code : Byte) =>
      let p := (s.ib.permits &&& ~~~withdraw) ||| g
      State.replied { s.acked with ib.permits := p } h code .done [p.extractLsb' 8 8, p.extractLsb' 0 8]
    exec (.permitGrant h grant withdraw) s = .next (finish s (answered grant codePermitGrant)) ∧
    exec (.permitWithdraw h withdraw) s = .next (finish s (answered 0 codePermitWithdraw)) ∧
    ∀ i : Fin 16,
      ((s.ib.permits &&& ~~~withdraw) ||| grant).getLsbD i.val =
        (if grant.getLsbD i.val then true else if withdraw.getLsbD i.val then false else s.ib.permits.getLsbD i.val)

/-- The cells act from JOINING on, each formed in index order with the new outputs of those below it: AND, OR and XOR give their
function of the three inputs, and a LATCH its latch, which B clears and else A with C sets; each inverted where its item says
so. A cell not in use stays. -/
def Obligations.CellsFollow : Prop :=
  (∀ (s : State) (i : Ix8),
    let cfg := s.cl.image.cells[i]
    let a := s.select cfg.a
    let b := s.select cfg.b
    let c := s.select cfg.c
    let x := s.ib.cells[i]
    let formed := fun (value latch : Bool) =>
      { s with ib.cells := s.ib.cells.set i { out := value ^^ cfg.inverted, latch := latch } }
    (cfg.inUse = false → s.formCell i = s) ∧
    (cfg.inUse = true → cfg.fn = .and → s.formCell i = formed (a && b && c) x.latch) ∧
    (cfg.inUse = true → cfg.fn = .or → s.formCell i = formed (a || b || c) x.latch) ∧
    (cfg.inUse = true → cfg.fn = .xor → s.formCell i = formed (a ^^ b ^^ c) x.latch) ∧
    (cfg.inUse = true → cfg.fn = .latch →
      (b = true → s.formCell i = formed false false) ∧
      (b = false → a = true → c = true → s.formCell i = formed true true) ∧
      (b = false → (a && c) = false → s.formCell i = formed x.latch x.latch))) ∧
  ∀ s : State,
    (s.cl.station = .joining ∨ s.cl.station = .operating ∨ s.cl.station = .conflict →
      s.formCells = [0, 1, 2, 3, 4, 5, 6, 7].foldl State.formCell s) ∧
    (s.cl.station = .loading ∨ s.cl.station = .unconfigured → s.formCells = s)

/-- The line-stop unit follows the stop condition: from WAITING it times the condition, or triggers at once with a trigger time
of 0; a drop brings it back to WAITING; the trigger timer's expiry triggers. A trigger stops the process, drives the stop output
and queues a STOP with the enabled selectors; the width timer's expiry ends a pulse. -/
def Obligations.StopUnitActs : Prop :=
  ∀ s : State,
    let c := s.cl.image.stop
    let u := s.setStopped
    let driven : State :=
      if c.stopWidth = 0 then { u with ib.stopOut := .held, ib.widthTimer := none }
      else if s.ib.stopOut = .held then u
      else { u with ib.stopOut := .pulse, ib.widthTimer := some (10 * c.stopWidth) }
    let causes : BitVec 3 :=
      BitVec.ofNat 3 (c.s0.enabled.toNat + 2 * c.s1.enabled.toNat + 4 * c.s2.enabled.toNat)
    let triggered : State := { driven.enqueue (.stop causes) with ib.stopUnit := .triggered, ib.triggerTimer := none }
    (s.active = true →
      (s.ib.stopUnit = .waiting → s.stopCondition = true → c.triggerTime ≠ 0 →
        s.stopFollows = { s with ib.stopUnit := .timing, ib.triggerTimer := some (10 * c.triggerTime) }) ∧
      (s.ib.stopUnit = .waiting → s.stopCondition = true → c.triggerTime = 0 → s.stopFollows = triggered) ∧
      (s.ib.stopUnit = .timing → s.stopCondition = false →
        s.stopFollows = { s with ib.stopUnit := .waiting, ib.triggerTimer := none }) ∧
      (s.ib.stopUnit = .triggered → s.stopCondition = false → s.stopFollows = { s with ib.stopUnit := .waiting }) ∧
      ((s.ib.stopUnit = .waiting ∧ s.stopCondition = false) ∨ (s.ib.stopUnit ≠ .waiting ∧ s.stopCondition = true) →
        s.stopFollows = s)) ∧
    (s.ib.stopUnit = .timing → exec .triggerTimerExpiry s = .next (finish s triggered)) ∧
    (s.ib.stopOut = .pulse →
      exec .widthTimerExpiry s = .next (finish s { s with ib.stopOut := .off, ib.widthTimer := none })) ∧
    (s.stopCondition = true ↔
      (c.s0.enabled = true ∨ c.s1.enabled = true ∨ c.s2.enabled = true) ∧
        ∀ x ∈ [c.s0, c.s1, c.s2], x.enabled = true → s.select x.signal = true)

/-- A STOP taken, own or heard, stops the process and sets the last stop record. RESUME tests the stop condition: false, the
process runs and a held stop output is released; true, it is refused and nothing changes. Its REPLY carries the process state,
the condition and the last stop record (the cause set 0 sent where there is none is the model's choice, log 38, and so is that
the process state and the condition are those before the readers act on the RUN, log 39). -/
def Obligations.StopIsTakenAndResumed : Prop :=
  ∀ (s : State) (source : Addr) (causes : BitVec 3),
    (s.takes source = true →
      exec (.stopTaken (.heard source causes)) s =
        .next (finish s { s.acked.setStopped with ib.lastStop := some ⟨source, causes⟩ })) ∧
    (s.operating = true → s.sends (.stop causes) = true →
      exec (.stopTaken .own) s =
        .next (finish s { s.complete.setStopped with ib.lastStop := some ⟨s.ownAddr, causes⟩ })) ∧
    ∀ h : CmdHeader, s.commanded h = true →
      let last : List Byte := match s.ib.lastStop with
        | none => [0, 0]
        | some r => [r.source.setWidth 8, r.causes.setWidth 8]
      (s.stopCondition = true →
        exec (.resume h) s = .next (finish s (s.acked.replied h codeResume .refusedState []))) ∧
      (s.stopCondition = false →
        exec (.resume h) s =
          .next (finish s
            (State.replied
              { s.acked with
                ib.process := .run, ib.stopOut := if s.ib.stopOut = .held then .off else s.ib.stopOut }
              h codeResume .done (0 :: last))))

/-! ### The configuration loader -/

/-- A held cause resets every block to its values after reset and holds the part; its release, the last one held, begins LOADING:
straps of 0 or 31 lead to UNCONFIGURED with ADDRESS_BAD, others become the address, and the image is read once the serial bus is
free (log 33). The pins and the model's own fields stay (logs 1 and 7). -/
def Obligations.PartIsReset : Prop :=
  (∀ s : State,
    let r := fun (power pin : Bool) =>
      { State.reset with
        cl := { Loader.reset with heldPower := power, heldPin := pin }
        pins := s.pins, now := s.now, free := s.free, pending := s.pending }
    exec (.reset .power) s = .next (finish s (r true s.cl.heldPin)) ∧
    exec (.reset .pin) s = .next (finish s (r s.cl.heldPower true))) ∧
  ∀ (s : State) (straps : BitVec 5),
    let u := { s with pins.straps := straps }
    (s.cl.heldPower = true → s.cl.heldPin = true →
      exec (.resetRelease .power straps) s = .next (finish s { u with cl.heldPower := false }) ∧
      exec (.resetRelease .pin straps) s = .next (finish s { u with cl.heldPin := false })) ∧
    (s.cl.heldPower ≠ s.cl.heldPin →
      let v := { u with cl.heldPower := false, cl.heldPin := false }
      let cause : HeldCause := if s.cl.heldPower then .power else .pin
      (straps ≠ 0 → straps ≠ 31 →
        exec (.resetRelease cause straps) s =
          .next (finish s
            { v with cl.address := some straps, cl.readTimer := some 100, cl.busTimer := some 10 })) ∧
      (straps = 0 ∨ straps = 31 → s.cl.address = none →
        exec (.resetRelease cause straps) s =
          .next (finish s
            { v with
              cl.station := .unconfigured, cl.fault := .addressBad, cl.offending := 0, cl.readTimer := none
              cl.busTimer := none, cl.retryTimer := none, li.filter := none, mb.alarm := .asserted })))

/-- An addressed RESTART queues a REPLY of DONE with the station state, fault code, offending block and join mark; the first
makes the restart pending and starts the restart timer, and where its REPLY is dropped (in CONFLICT or MUTE) the reset is due at
once; a further one queues a further REPLY alone; a broadcast one is ignored. A full queue takes the REPLY in where it outranks
the frame that it evicts; where it turns the REPLY away, the reset is left to the timer (log 20). The restart timer's expiry
brings the reset. -/
def Obligations.RestartIsAccepted : Prop :=
  ∀ (s : State) (h : CmdHeader), s.hears h.source = true →
    let f : Frame :=
      .reply
        { panel := h.source, code := codeRestart, result := .done
          data :=
            [BitVec.ofNat 8 s.cl.station.code, BitVec.ofNat 8 s.cl.fault.code, BitVec.ofNat 8 s.cl.offending,
              if s.cl.joinMark then 1 else 0] }
    let entry := { s.newEntry f with restart := true }
    let before := fun (e : QEntry) => e.frame.rank < 6 ∨ (e.frame.rank = 6 ∧ e.moment ≤ s.now.moment)
    let pends := fun (u : State) => { u with cl.restartPending := true, cl.restartTimer := some 100 }
    (h.dest = broadcast ∨ s.addressed h = false → exec (.restart h) s = .next (finish s s.acked)) ∧
    (h.dest ≠ broadcast → s.addressed h = true → s.cl.restartPending = true →
      exec (.restart h) s = .next (finish s (s.acked.enqueue f))) ∧
    (h.dest ≠ broadcast → s.addressed h = true → s.cl.restartPending = false →
      (s.cl.station = .conflict ∨ s.li.line = .mute →
        exec (.restart h) s = .next (finish s { pends s.acked with cl.resetDue := true })) ∧
      (s.li.line = .active →
        (s.cl.station = .unconfigured ∨ s.cl.station = .joining ∨ s.cl.station = .operating) →
        (∀ a b : List QEntry,
          s.li.queue = a ++ b → (a ++ b).length < 16 → (∀ e ∈ a, before e) → (∀ e ∈ b, ¬before e) →
          exec (.restart h) s = .next (finish s { pends s.acked with li.queue := a ++ entry :: b })) ∧
        ∀ (a b : List QEntry) (v : QEntry), s.li.queue = a ++ v :: b → 16 ≤ (a ++ v :: b).length →
          v.flight = none → (∀ e ∈ b, e.flight.isSome = true) →
          (v.frame.rank ≤ 6 →
            exec (.restart h) s =
              .next (finish s { pends s.acked with li.queue := s.li.queue.map QEntry.lose, li.txqLost := true })) ∧
          ∀ p q : List QEntry, 6 < v.frame.rank → a ++ b = p ++ q → (∀ e ∈ p, before e) → (∀ e ∈ q, ¬before e) →
            exec (.restart h) s =
              .next (finish s
                { pends s.acked with
                  li.queue := (p ++ entry :: q).map QEntry.lose, li.txqLost := true
                  cl.resetDue := s.cl.resetDue || v.restart }))) ∧
    (s.cl.restartPending = true → s.cl.restartTimer.isSome = true →
      exec .restartTimerExpiry s = .next (finish s { s with cl.resetDue := true }))

/-- A completed read of the image ends LOADING: in UNCONFIGURED with IMAGE_BAD, or with IMAGE_INVALID and the block, each with a
JOIN, or in JOINING with the items taken, the address in the filter, a JOIN queued and the join timer started. A failed read is
made again after 10 ms, from its start and with its waiting for the serial bus, and the third ends in LOAD_FAILED. -/
def Obligations.ImageIsRead : Prop :=
  (∀ (s : State) (bytes : List Byte), s.cl.station = .loading → s.cl.readTimer.isSome = true →
    s.cl.address.isSome = true →
    let unconfigured := fun (u : State) (fault : FaultCode) (block : Nat) =>
      let t := { u with
        cl.station := .unconfigured, cl.fault := fault, cl.offending := block, cl.readTimer := none
        cl.busTimer := none, cl.retryTimer := none, li.filter := s.cl.address, mb.alarm := .asserted }
      t.enqueue (.join t.joinContent)
    (checkImage bytes = .bad →
      exec (.imageReadComplete bytes) s = .next (finish s (unconfigured s .imageBad 0))) ∧
    (∀ block : Nat, checkImage bytes = .invalid block →
      exec (.imageReadComplete bytes) s = .next (finish s (unconfigured s .imageInvalid block))) ∧
    (∀ img : Image, checkImage bytes = .accepted img →
      let loop := fun (i : LoopIx) =>
        { s.hl.loops[i] with sp := img.loops[i].defaultSp, enabled := img.loops[i].inUse && img.loops[i].autoEnable }
      let t := { s with
        cl.station := .joining, cl.image := img, cl.readTimer := none, cl.busTimer := none
        cl.joinTimer := some 200, cl.joinMark := false, li.filter := s.cl.address, hl.loops := #v[loop 0, loop 1]
        lu.invalid := img.level.inUse }
      exec (.imageReadComplete bytes) s = .next (finish s (t.enqueue (.join t.joinContent)))) ∧
    (∀ cause : ReadFailure,
      (s.cl.readFails + 1 < 3 →
        exec (.imageReadFailed cause) s =
          .next (finish s
            { s with
              cl.readFails := s.cl.readFails + 1, cl.readTimer := none, cl.busTimer := none
              cl.retryTimer := some 10 })) ∧
      (3 ≤ s.cl.readFails + 1 →
        exec (.imageReadFailed cause) s =
          .next (finish s (unconfigured { s with cl.readFails := s.cl.readFails + 1 } .loadFailed 0))))) ∧
  ∀ s : State, s.cl.station = .loading → s.cl.retryTimer.isSome = true →
    exec .readRetryWaitExpiry s =
      .next (finish s
        { s with cl.retryTimer := none, cl.readTimer := some 100, cl.busTimer := some 10 })

/-- The image check: a header that is not the format tag with the length of the blocks is IMAGE_BAD, and so is a check that is
not the CRC over header and blocks; else the first block in index order that fails its tests is reported, and an image whose
blocks all pass is accepted with its items; bytes beyond the check are not read. The 34 tests by block: the range of every field,
the codes listed, and the combinations refused (bits 0 and 31 of the expected set are not read, log 35). The items by their
places: two and three bytes most significant first, flags by bit, a selection's inversion and code. -/
def Obligations.ImageIsChecked : Prop :=
  (∀ (tag length crc : BitVec 16) (blocks rest : List Byte), blocks.length = 343 →
    let header := [tag.extractLsb' 8 8, tag.extractLsb' 0 8, length.extractLsb' 8 8, length.extractLsb' 0 8]
    let image := header ++ blocks ++ [crc.extractLsb' 8 8, crc.extractLsb' 0 8] ++ rest
    (tag ≠ 0xc330#16 ∨ length ≠ 343#16 → checkImage image = .bad) ∧
    (tag = 0xc330#16 → length = 343#16 →
      (crc ≠ crc16 (bitsOfBytes (header ++ blocks)) → checkImage image = .bad) ∧
      (crc = crc16 (bitsOfBytes (header ++ blocks)) →
        (∀ i : Nat, (blockTests blocks)[i]? = some false → (∀ j < i, (blockTests blocks)[j]? = some true) →
          checkImage image = .invalid i) ∧
        ((∀ ok ∈ blockTests blocks, ok = true) → checkImage image = .accepted (imageOf blocks))))) ∧
  (∀ blocks : List Byte,
    let byte := fun (n : Nat) => (blocks.getD n 0).toNat
    let img := imageOf blocks
    let st := img.station
    let lv := img.level
    let ex := img.extraction
    let listed := fun (n : Nat) => sigOfCode (byte (n + 1)) ≠ none
    (blockTests blocks).length = 34 ∧
    (blockTests blocks)[0]? =
      some (decide (1 ≤ st.encoderScale ∧ st.encoderScale ≤ 1000 ∧ st.sensorPosition ≤ 8388607 ∧
        5 ≤ st.captureWindow ∧ st.captureWindow ≤ 200 ∧ st.forgetPosition ≤ 7738606 ∧ 1 ≤ st.budget ∧
        st.safeGrant ≤ 32767 ∧ byte 18 % 16 ≤ 8 ∧ byte 19 % 16 ≤ 8 ∧ 2 * st.safeGrant ≤ st.budget)) ∧
    (∀ k : Chan,
      let c := img.chans[k]
      (blockTests blocks)[1 + k.val]? =
        some (decide (byte (20 + 20 * k.val) ≤ 3 ∧ listed (29 + 20 * k.val) ∧ c.nozzle ≤ 8388607 ∧
          c.leadMargin ≤ 500000 ∧ c.trailMargin ≤ 500000 ∧ ¬(c.onBase = 125 ∧ c.periodBase = 1) ∧
          (c.onTime = 0 ∨ c.period = 0 ∨ c.onTime * c.onBase < c.period * c.periodBase) ∧
          (c.mode = .off ∨ c.nozzle + c.trailMargin ≤ st.forgetPosition) ∧
          (c.levelOwned = true → c.mode = .free ∧ ∀ j : Chan, j < k → (img.chans[j]).levelOwned = false)))) ∧
    (∀ i : LoopIx,
      let c := img.loops[i]
      (blockTests blocks)[5 + i.val]? =
        some (decide (c.spMin ≤ 5000 ∧ c.spMax ≤ 5000 ∧ c.fBoard ≤ 500 ∧ c.deadband ≤ 100 ∧ 1 ≤ c.rated ∧
          c.rated ≤ 2000 ∧ -100 ≤ c.tcOffset ∧ c.tcOffset ≤ 100 ∧ listed (116 + 25 * i.val) ∧ c.zoneStart ≤ 8388607 ∧
          c.zoneEnd ≤ 8388607 ∧ c.lookahead ≤ 30 ∧ c.spMin ≤ c.spMax ∧ c.spMin ≤ c.defaultSp ∧
          c.defaultSp ≤ c.spMax ∧ (c.inUse = true → c.zoneEnd ≤ st.forgetPosition) ∧
          (c.ganged = true → i = 1 ∧ (img.loops[(0 : LoopIx)]).inUse = true ∧ c.inUse = true)))) ∧
    (blockTests blocks)[7]? =
      some (decide (byte 150 ≤ 1 ∧ byte 151 ≤ 4 ∧ lv.waveOffset ≤ 300 ∧ 5 ≤ lv.settle ∧ lv.settle ≤ 100 ∧
          -500 ≤ lv.feedOn ∧ lv.feedOn ≤ 500 ∧ -500 ≤ lv.feedOff ∧ lv.feedOff ≤ 500 ∧ 5 ≤ lv.maxFeed ∧ lv.maxFeed ≤ 600 ∧
          lv.feedOn < lv.feedOff ∧ (lv.wave = none ∨ lv.wave ≠ ownedChanOf img))) ∧
    (blockTests blocks)[8]? =
      some (decide (byte 161 ≤ 1 ∧ ex.base ≤ 1000 ∧ ex.perBoard ≤ 1000 ∧ ex.boost ≤ 1000 ∧ ex.watchedStation ≤ 30 ∧
          byte 169 ≤ 3 ∧ 1 ≤ ex.rampStep ∧ ex.rampStep ≤ 1000 ∧ 1 ≤ ex.activeThreshold ∧ ex.activeThreshold ≤ 1000 ∧
          ex.minAirflow ≤ 2000 ∧ ex.clogThreshold ≤ 2000 ∧ ex.span1.first ≤ 8388607 ∧ ex.span1.last ≤ 8388607 ∧
          ex.span2.first ≤ 8388607 ∧ ex.span2.last ≤ 8388607)) ∧
    (∀ i : Ix8,
      let c := img.points[i]
      (blockTests blocks)[9 + i.val]? =
        some (decide (byte (192 + 9 * i.val) ≤ 6 ∧ listed (193 + 9 * i.val) ∧ -500 ≤ c.threshold ∧ c.threshold ≤ 5000 ∧
          c.hysteresis ≤ 1000 ∧ byte (199 + 9 * i.val) ≤ 3))) ∧
    (∀ i : Ix8,
      let c := img.cells[i]
      (blockTests blocks)[17 + i.val]? =
        some (decide (listed (264 + 7 * i.val) ∧ listed (266 + 7 * i.val) ∧ listed (268 + 7 * i.val) ∧
          ∀ j : Ix8, i ≤ j → c.a.sig ≠ .cell j ∧ c.b.sig ≠ .cell j ∧ c.c.sig ≠ .cell j))) ∧
    (blockTests blocks)[25]? = some (decide (listed 319 ∧ listed 321 ∧ listed 323)) ∧
    (∀ i : Ix8,
      (blockTests blocks)[26 + i.val]? =
        some (decide (1 ≤ byte (328 + 2 * i.val) ∧ byte (328 + 2 * i.val) ≤ 30))) ∧
    (∀ k : Chan, ownedChanOf img = some k ↔
      (img.chans[k]).levelOwned = true ∧ ∀ j : Chan, j < k → (img.chans[j]).levelOwned = false)) ∧
  (∀ blocks : List Byte,
    let byte := fun (n : Nat) => (blocks.getD n 0).toNat
    let two := fun (n : Nat) => 256 * byte n + byte (n + 1)
    let three := fun (n : Nat) => 65536 * byte n + two (n + 1)
    let signed := fun (n : Nat) => (BitVec.ofNat 16 (two n)).toInt
    let bit := fun (n i : Nat) => (blocks.getD n 0).getLsbD i
    let selection := fun (n : Nat) =>
      { sig := (sigOfCode (byte (n + 1))).getD (.constant false), inverted := bit n 7 : Selection }
    let gout := fun (n : Nat) =>
      { cell := if byte n % 16 = 0 then none else some (Fin.ofNat 8 (byte n % 16 - 1)), inverted := bit n 7 : GoutCfg }
    let img := imageOf blocks
    img.station =
      { entrySource := bit 0 0, speedSource := bit 0 1, sensor := bit 0 2, encoderScale := two 1
        sensorPosition := three 3, captureWindow := byte 6, forgetPosition := three 7, budget := two 10
        safeGrant := two 12, expected := BitVec.ofNat 32 (65536 * two 14 + two 16), gout0 := gout 18
        gout1 := gout 19 } ∧
    (∀ k : Chan,
      let n := 20 + 20 * k.val
      img.chans[k] =
        { mode :=
            if byte n = 0 then .off else if byte n = 1 then .free else if byte n = 2 then .board else .input
          delay := byte (n + 1), onTime := byte (n + 2), period := byte (n + 3)
          onBase := if bit (n + 4) 0 then 125 else 1, periodBase := if bit (n + 4) 1 then 125 else 1
          countLimit := two (n + 5), rearmCount := bit (n + 7) 0, rearmSingle := bit (n + 7) 1
          rearmWindow := bit (n + 7) 2, rearmInputEnd := bit (n + 7) 3, completePulse := bit (n + 8) 0
          inverted := bit (n + 8) 1, levelOwned := bit (n + 8) 2, permit := selection (n + 9)
          nozzle := three (n + 11), leadMargin := three (n + 14), trailMargin := three (n + 17) }) ∧
    (∀ i : LoopIx,
      let n := 100 + 25 * i.val
      img.loops[i] =
        { inUse := bit n 0, ganged := bit n 1, autoEnable := bit n 2, cls := (bit n 3).toNat, spMin := two (n + 1)
          spMax := two (n + 3), defaultSp := two (n + 5), kp := byte (n + 7), ki := byte (n + 8)
          fBoard := two (n + 9), deadband := byte (n + 11), rated := two (n + 12), tcOffset := signed (n + 14)
          permit := selection (n + 16), zoneStart := three (n + 18), zoneEnd := three (n + 21)
          lookahead := byte (n + 24) }) ∧
    img.level =
      { inUse := decide (byte 150 = 1), wave := if byte 151 = 0 then none else some (Fin.ofNat 4 (byte 151 - 1))
        waveOffset := two 152, settle := byte 154, feedOn := signed 155, feedOff := signed 157, maxFeed := two 159 } ∧
    img.extraction =
      { inUse := decide (byte 161 = 1), base := two 162, perBoard := two 164, boost := two 166
        watchedStation := byte 168, watchedChan := Fin.ofNat 4 (byte 169), rampStep := two 170
        activeThreshold := two 172, minAirflow := two 174, clogThreshold := two 176
        span1 := ⟨bit 178 0, three 179, three 182⟩, span2 := ⟨bit 178 1, three 185, three 188⟩ } ∧
    (∀ i : Ix8,
      let n := 191 + 9 * i.val
      img.points[i] =
        { inUse := bit n 0, isSignal := bit n 1, below := bit n 2, onSource := bit n 3, trip := bit n 4
          analog :=
            ([Analog.gain0, .gain1, .pv0, .pv1, .level, .airflow, .fanOutput][byte (n + 1)]?).getD .fanOutput
          signal := selection (n + 2), threshold := signed (n + 4), hysteresis := two (n + 6)
          qualification := ([3, 6, 12, 24][byte (n + 8)]?).getD 24 }) ∧
    (∀ i : Ix8,
      let n := 263 + 7 * i.val
      img.cells[i] =
        { inUse := bit n 0
          fn := if bit n 2 then (if bit n 1 then .latch else .xor) else if bit n 1 then .or else .and
          inverted := bit n 3, a := selection (n + 1), b := selection (n + 3), c := selection (n + 5) }) ∧
    img.stop =
      { s0 := ⟨bit 319 6, selection 319⟩, s1 := ⟨bit 321 6, selection 321⟩, s2 := ⟨bit 323 6, selection 323⟩
        triggerTime := byte 325, stopWidth := byte 326 } ∧
    ∀ i : Ix8,
      let n := 327 + 2 * i.val
      img.slots[i] = { inUse := bit n 7, station := byte (n + 1), point := Fin.ofNat 8 (byte n) }) ∧
  sigOfCode 0 = some (.constant false) ∧ sigOfCode 1 = some (.constant true) ∧
  (∀ i : Ix8, sigOfCode (2 + i.val) = some (.pointRaised i) ∧ sigOfCode (10 + i.val) = some (.cell i)) ∧
  (∀ i : Fin 16, sigOfCode (18 + i.val) = some (.permit i)) ∧ (∀ i : Fin 2, sigOfCode (34 + i.val) = some (.gin i)) ∧
  (∀ k : Chan,
    sigOfCode (36 + k.val) = some (.chreq k) ∧ sigOfCode (40 + k.val) = some (.chend k) ∧
    sigOfCode (44 + k.val) = some (.busy k) ∧ sigOfCode (48 + k.val) = some (.running k) ∧
    sigOfCode (52 + k.val) = some (.windowOccupied k)) ∧
  (∀ i : LoopIx,
    [LoopFlag.n, .z, .c, .v, .l].zipIdx.all (fun x => sigOfCode (56 + 5 * i.val + x.2) = some (.flag x.1 i)) = true ∧
    sigOfCode (66 + i.val) = some (.tcOpen i)) ∧
  [Sig.speedStale, .speedConflict, .boardMissed, .unknownBoard, .transitOverflow, .longBoard, .mainsLost, .levelInvalid,
      .levelSettling, .feedRequest, .feedTimeout, .airflowLow, .filterLoaded, .tableFull, .safeMode, .lineMute,
      .txqLost].zipIdx.all (fun x => sigOfCode (68 + x.2) = some x.1) = true ∧
  (∀ i : Ix8, sigOfCode (85 + i.val) = some (.watchRaised i) ∧ sigOfCode (93 + i.val) = some (.watchSilent i)) ∧
  ∀ n : Nat, 101 ≤ n → sigOfCode n = none

/-- The join timer's expiry brings OPERATING: the timers start, both temperature inputs are converted (but that of a ganged HL1)
and, where the level unit is in use, the level input, as at every later conversion, the points on them sample (log 23), and the
first STATE is queued; nothing else changes. -/
def Obligations.OperatingIsEntered : Prop :=
  ∀ (s : State) (raw0 raw1 : Fin 5001) (reading : BitVec 10), s.cl.station = .joining → s.cl.joinTimer.isSome = true →
    let img := s.cl.image
    let converted := fun (i : LoopIx) (raw : Nat) =>
      let l := s.hl.loops[i]
      if raw = 5000 then
        { l with openCnt := min 3 (l.openCnt + 1), goodCnt := 0, tcOpen := l.tcOpen || decide (2 ≤ l.openCnt) }
      else
        { l with
          pv := min 5000 ((raw : Int) - img.loops[i].tcOffset).toNat
          goodCnt := min 3 (l.goodCnt + 1), openCnt := 0, tcOpen := l.tcOpen && decide (l.goodCnt < 2) }
    let x := reading.toInt
    let l := s.lu
    let valid := decide (-500 ≤ x ∧ x ≤ 500)
    let invalid := !valid || (l.invalid && decide (l.valid < 2))
    let fresh := valid && !invalid && l.settleTimer.isNone
    let comp := if fresh then (if l.wave then max (-500) (min 500 (x + img.level.waveOffset)) else x) else l.comp
    let request :=
      if fresh then (if comp < img.level.feedOn then true else if comp < img.level.feedOff then l.request else false)
      else l.request
    let sampled : LevelUnit :=
      { l with
        raw := if valid then x else l.raw
        valid := if !valid then 0 else if l.invalid then (if invalid then l.valid + 1 else 0) else l.valid
        invalid := invalid, comp := comp, request := request, inhibit := l.inhibit && (request || !l.request)
        levelTimer := some 100 }
    let t :=
      State.sample
        { s with
          cl.station := .operating, cl.joinTimer := none, cl.started := true, tt.interval := some 10
          tt.staleTimer := some 2000, tt.speedWindow := if img.station.speedSource then some 100 else none
          hl.zcTimer := some 50, hl.tcTimer := some 100
          hl.loops :=
            #v[converted 0 raw0.val,
              if img.loops[(1 : LoopIx)].ganged then s.hl.loops[(1 : LoopIx)] else converted 1 raw1.val]
          lu := if img.level.inUse then sampled else l
          bu.startTimer := some 3000, xu.timer := if img.extraction.inUse then some 100 else none
          mb.monitorTimer := some 100, mb.statusTimer := some 250, mb.graceTimer := some 1000 }
        (if img.level.inUse then [some .conversion, some .level] else [some .conversion])
    exec (.joinTimerExpiry raw0 raw1 reading) s = .next (finish s (t.enqueue (.state t.stateContent)))

/-! ### Conditions and outputs -/

/-- What the conditions and the pins are that the other statements name. Each catalogue signal, and its selection with inversion;
when feeding is allowed and when a loop is forced off; safe mode (false before OPERATING, log 34) and the share basis; the watch
signals; the event at which a point samples; the contents of STATE and JOIN; the levels of the output pins. -/
def Obligations.ConditionsAndOutputs : Prop :=
  ∀ s : State,
    let img := s.cl.image
    let tcOpen := fun (i : LoopIx) =>
      if i = 1 ∧ img.loops[(1 : LoopIx)].ganged = true then s.hl.loops[(0 : LoopIx)].tcOpen else s.hl.loops[i].tcOpen
    let raised := fun (i : Ix8) => decide (s.mb.points[i].st = .raised ∨ s.mb.points[i].st = .raisedAcked)
    let unacked := fun (i : Ix8) => decide (s.mb.points[i].st = .raised ∨ s.mb.points[i].st = .clearedUnacked)
    let runs := fun (c : Channel) => decide (c.st = .delay ∨ c.st = .on ∨ c.st = .off ∨ c.st = .halting)
    let sent := s.stateContent
    let joined := s.joinContent
    let follows := decide (s.cl.station = .joining ∨ s.cl.station = .operating ∨ s.cl.station = .conflict)
    -- the catalogue
    ((∀ x : Selection, s.select x = (s.signal x.sig ^^ x.inverted)) ∧ (∀ b : Bool, s.signal (.constant b) = b) ∧
      (∀ i : Ix8,
        s.signal (.pointRaised i) = raised i ∧ s.signal (.cell i) = s.ib.cells[i].out ∧
        s.signal (.watchRaised i) = s.slotRaised i ∧ s.signal (.watchSilent i) = s.slotSilent i) ∧
      (∀ i : Fin 16, s.signal (.permit i) = s.ib.permits.getLsbD i.val) ∧
      (∀ i : Fin 2, s.signal (.gin i) = s.pins.gin[i]) ∧
      (∀ k : Chan,
        s.signal (.chreq k) = s.pins.chreq[k] ∧ s.signal (.chend k) = s.pins.chend[k] ∧
        s.signal (.busy k) = decide (s.ac[k].st ≠ .idle) ∧ s.signal (.running k) = runs s.ac[k] ∧
        s.signal (.windowOccupied k) = decide (1 ≤ s.tt.windows[k].count) ∧
        s.chanPermit k = s.select img.chans[k].permit) ∧
      (∀ i : LoopIx,
        s.signal (.flag .n i) = s.hl.loops[i].n ∧ s.signal (.flag .z i) = s.hl.loops[i].z ∧
        s.signal (.flag .c i) = s.hl.loops[i].c ∧ s.signal (.flag .v i) = s.hl.loops[i].v ∧
        s.signal (.flag .l i) = s.hl.loops[i].l ∧ s.signal (.tcOpen i) = tcOpen i) ∧
      s.signal .speedStale = s.tt.stale ∧ s.signal .speedConflict = s.tt.conflict ∧
      (s.signal .boardMissed = true ↔ ∃ r ∈ s.tt.table, r.missed = true) ∧
      (s.signal .unknownBoard = true ↔ ∃ r ∈ s.tt.table, r.id = 0) ∧ s.signal .transitOverflow = s.tt.overflow ∧
      s.signal .longBoard = s.tt.longBoard ∧ s.signal .mainsLost = s.hl.mainsLost ∧
      s.signal .levelInvalid = s.lu.invalid ∧ s.signal .levelSettling = s.lu.settleTimer.isSome ∧
      s.signal .feedRequest = s.lu.request ∧ s.signal .feedTimeout = s.lu.feedTimeout ∧
      s.signal .airflowLow = s.xu.low ∧ s.signal .filterLoaded = s.xu.loaded ∧
      s.signal .tableFull = s.bu.tableFull ∧ s.signal .safeMode = s.safeMode ∧
      s.signal .lineMute = decide (s.li.line = .mute) ∧ s.signal .txqLost = s.li.txqLost) ∧
    -- feeding, forcing off, safe mode, the share basis
    ((s.feedAllowed = true ↔
        img.level.inUse = true ∧ (∃ k : Chan, img.chans[k].levelOwned = true) ∧ s.cl.station = .operating ∧
          s.ib.process = .run ∧ s.lu.request = true ∧ s.lu.inhibit = false ∧ s.lu.feedTimeout = false ∧
          s.lu.invalid = false) ∧
      (∀ i : LoopIx,
        s.forcedOff i = true ↔
          s.hl.loops[i].enabled = false ∨ s.select img.loops[i].permit = false ∨ tcOpen i = true) ∧
      (s.cl.station = .operating →
        (s.safeMode = true ↔
          s.bu.startTimer.isSome = true ∨ s.bu.tableFull = true ∨
            ∃ i : LoopIx, img.loops[i].inUse = true ∧ s.hl.loops[i].enabled = true ∧ s.ownEntry i = none)) ∧
      (s.cl.station = .conflict → s.safeMode = true) ∧
      (s.cl.station ≠ .operating → s.cl.station ≠ .conflict → s.safeMode = false) ∧
      (∀ (i : LoopIx) (e : DemandEntry), s.ownEntry i = some e →
        e ∈ s.bu.table ∧ e.station = s.ownAddr.toNat ∧ e.loop = i) ∧
      (∀ i : LoopIx, s.ownEntry i = none ↔ ∀ e ∈ s.bu.table, ¬(e.station = s.ownAddr.toNat ∧ e.loop = i)) ∧
      basisOf s =
        { s0 := ((s.bu.table.filter fun e => decide (e.cls = 0)).map fun e => e.demand).sum
          s1 := ((s.bu.table.filter fun e => decide (e.cls = 1)).map fun e => e.demand).sum
          own0 := (s.ownEntry 0).map fun e => ⟨e.cls, e.demand⟩
          own1 := (s.ownEntry 1).map fun e => ⟨e.cls, e.demand⟩, safe := s.safeMode }) ∧
    -- the watch slots
    (∀ i : Ix8,
      let w := img.slots[i]
      let peer := s.mb.peers.find? fun e => decide (e.addr = BitVec.ofNat 5 w.station)
      (s.slotRaised i = true ↔
        w.inUse = true ∧ ∃ e : PeerEntry, peer = some e ∧ e.silent = false ∧ e.raised.getLsbD w.point.val = true) ∧
      (s.slotSilent i = true ↔
        w.inUse = true ∧ img.station.expected.getLsbD w.station = true ∧ s.mb.graceExpired = true ∧
          ∀ e : PeerEntry, peer = some e → e.silent = true)) ∧
    -- the event at which a point samples
    (∀ c : PointCfg,
      (c.isSignal = false ∨ c.onSource = false → pointUpdate c = none) ∧
      (c.isSignal = true → c.onSource = true →
        pointUpdate c =
          match c.signal.sig with
          | .flag _ i => some (.loop i)
          | .tcOpen _ => some .conversion
          | .levelInvalid | .levelSettling | .feedRequest => some .level
          | .airflowLow | .filterLoaded => some .extraction
          | .boardMissed | .unknownBoard | .transitOverflow | .longBoard | .windowOccupied _ => some .tracking
          | _ => none)) ∧
    -- the contents of STATE and JOIN
    ((∀ i : Ix8, sent.raised.getLsbD i.val = raised i ∧ sent.unacked.getLsbD i.val = unacked i) ∧
      (∀ k : Chan, sent.busy.getLsbD k.val = decide (s.ac[k].st ≠ .idle) ∧ sent.running.getLsbD k.val = runs s.ac[k]) ∧
      sent =
        { raised := sent.raised, unacked := sent.unacked, busy := sent.busy, running := sent.running, permits := s.ib.permits
          stopped := decide (s.ib.process = .stopped), limited0 := s.hl.loops[(0 : LoopIx)].l
          limited1 := s.hl.loops[(1 : LoopIx)].l, fault0 := tcOpen 0, fault1 := tcOpen 1, speedStale := s.tt.stale
          safeMode := s.safeMode, txqLost := s.li.txqLost, tableFull := s.bu.tableFull
          transitOverflow := s.tt.overflow }) ∧
    ((s.cl.station = .unconfigured →
        joined =
          { roles := 0, sensorPosition := 0, expectedSize := 0, fault := BitVec.ofNat 8 s.cl.fault.code
            offending := if s.cl.fault = .imageInvalid then BitVec.ofNat 8 s.cl.offending else 0 }) ∧
      (s.cl.station ≠ .unconfigured →
        joined =
          { roles :=
              BitVec.ofNat 7
                (img.station.entrySource.toNat + 2 * img.station.speedSource.toNat + 4 * img.station.sensor.toNat +
                  8 * img.level.inUse.toNat + 16 * img.extraction.inUse.toNat +
                  32 * img.loops[(0 : LoopIx)].inUse.toNat + 64 * img.loops[(1 : LoopIx)].inUse.toNat)
            sensorPosition := if img.station.sensor then BitVec.ofNat 24 img.station.sensorPosition else 0
            expectedSize :=
              BitVec.ofNat 8 ((List.range' 1 30).countP fun n => img.station.expected.getLsbD n)
            fault := 0, offending := 0 })) ∧
    -- the output pins
    ((∀ k : Chan,
        s.chout k =
          (follows && (decide (s.ac[k].st = .on ∨ s.ac[k].st = .halting) ^^ img.chans[k].inverted))) ∧
      (∀ i : LoopIx,
        (s.hout i = true ↔
          img.loops[i].inUse = true ∧ s.active = true ∧ s.hl.mainsLost = false ∧ s.hl.begun = true ∧
            s.hl.loops[if i = 1 ∧ img.loops[(1 : LoopIx)].ganged = true then (0 : LoopIx) else i].pos <
              s.hl.loops[i].half)) ∧
      s.fanpwm = s.xu.pwm ∧ s.alarmPin = decide (s.mb.alarm = .asserted) ∧
      s.stopPin = decide (s.ib.stopOut = .pulse ∨ s.ib.stopOut = .held) ∧
      (∀ x ∈ [(s.gout0, img.station.gout0), (s.gout1, img.station.gout1)],
        (x.2.cell = none → x.1 = false) ∧
        ∀ i : Ix8, x.2.cell = some i → x.1 = (follows && (s.ib.cells[i].out ^^ x.2.inverted))))

/-! ### Reset and the invariants -/

/-- The machine right after reset: LOADING in power-on reset, every table, queue and total empty, every permit withdrawn, the
process STOPPED, the channels IDLE, every output at its reset level; and every invariant holds. Where the spec names no value
the model's choice stands (logs 7 and 10). -/
def Obligations.ResetHolds : Prop :=
  let s := State.reset
  s.pending = [] ∧ s.held = true ∧ s.cl.station = .loading ∧ s.cl.address = none ∧ s.cl.fault = .noFault ∧
    s.cl.readFails = 0 ∧ s.cl.joinMark = false ∧ s.cl.restartPending = false ∧ s.li.queue = [] ∧ s.li.line = .active ∧
    s.li.filter = none ∧ s.tt.table = [] ∧ s.tt.nextId = 1 ∧ (∀ i : Fin 5, s.tt.totals[i] = { value := 0, rolled := false }) ∧
    (∀ k : Chan, s.ac[k] = Channel.reset ∧ s.chout k = false) ∧
    (∀ i : LoopIx, s.hl.loops[i] = HeatLoop.reset ∧ s.hout i = false) ∧ s.bu.table = [] ∧ s.bu.tableFull = false ∧
    s.lu.feeder = .rest ∧ s.xu.output = 0 ∧ s.fanpwm = 0 ∧
    (∀ i : Ix8, s.mb.points[i].st = .normal ∧ s.ib.cells[i] = { out := false, latch := false }) ∧ s.mb.peers = [] ∧
    s.mb.alarm = .deasserted ∧ s.alarmPin = false ∧ s.ib.permits = 0 ∧ s.ib.process = .stopped ∧
    s.ib.stopUnit = .waiting ∧ s.ib.lastStop = none ∧ s.stopPin = false ∧ s.gout0 = false ∧ s.gout1 = false ∧
    StationOk s ∧ LineOk s ∧ TableOk s ∧ CountersOk s ∧ ChannelsIdle s ∧ LoopsOk s ∧ DemandsOk s ∧ UnitsOk s ∧ AlarmOk s

/-- Every step keeps the line interface's invariant: the queue's capacity and order, one frame in flight, the counts, and MUTE's
empty queue. -/
def Obligations.StepKeepsTheLine : Prop := ∀ s t : State, LineOk s → step s = .next t → LineOk t

/-- Every step keeps the station's invariant, and with it the transit table's: at most 24 records in strictly decreasing lead, no
nonzero id twice, none past the forget position, none before OPERATING. -/
def Obligations.StepKeepsTheTransitTable : Prop :=
  ∀ s t : State, StationOk s → TableOk s → step s = .next t → StationOk t ∧ TableOk t

/-- Every step keeps the channels IDLE wherever the station is not OPERATING or the process is STOPPED. -/
def Obligations.StepKeepsStoppedChannelsIdle : Prop :=
  ∀ s t : State, StationOk s → ChannelsIdle s → step s = .next t → ChannelsIdle t

/-- Every step keeps the alarm line asserted exactly while a point is RAISED or CLEARED-UNACKED, but for the gap, and in
UNCONFIGURED and CONFLICT. -/
def Obligations.StepKeepsTheAlarmLine : Prop :=
  ∀ s t : State, StationOk s → AlarmOk s → step s = .next t → AlarmOk t

/-- Every step keeps the loops' values in their ranges, with no applied output above the output computed and at most 100
half-cycles on; the demand table's capacity, keys and ages; the totals in eight digits, the pulse counts in 16 bits; and the
level, fan, speed and board-id values in their ranges. -/
def Obligations.StepKeepsTheRanges : Prop :=
  ∀ s t : State, step s = .next t →
    (LoopsOk s → LoopsOk t) ∧ (DemandsOk s → DemandsOk t) ∧ (CountersOk s → CountersOk t) ∧ (UnitsOk s → UnitsOk t)

/-- A frame read back: from the levels that a station sends for a kind, a source and up to eight bytes, a receiver reads these
(log 13 for the counting of the start bit and the run-limit bits). -/
def Obligations.SentFrameIsReadBack : Prop :=
  ∀ (kind : Nat) (source : Addr) (bytes : List Byte), kind < 16 → bytes.length ≤ 8 →
    receive (sentLevels kind source bytes) = some { kind := kind, source := source.toNat, bytes := bytes }

end
end

