-- ==== Sys2Proof/Laws/Frames.lean ====
section
/-! SUPPORT. What each shared operation can change, said once (Safety.lean's ByQueue, ByChannels, ByTable, BySampling and
ByReaders), so that no proof about the operations that call it unfolds it. -/

namespace Sys2Proof.Machine

/-! ### The relations chain -/

theorem ByQueue.refl (s : State) : ByQueue s s := rfl
theorem ByQueue.trans {s t u : State} (h : ByQueue s t) (k : ByQueue t u) : ByQueue s u := by
  rw [ByQueue] at *; rw [k, h]

theorem ByChannels.refl (s : State) : ByChannels s s := rfl
theorem ByChannels.trans {s t u : State} (h : ByChannels s t) (k : ByChannels t u) : ByChannels s u := by
  rw [ByChannels] at *; rw [k, h]

theorem ByTable.refl (s : State) : ByTable s s := rfl
theorem ByTable.trans {s t u : State} (h : ByTable s t) (k : ByTable t u) : ByTable s u := by
  rw [ByTable] at *; rw [k, h]

theorem BySampling.refl (s : State) : BySampling s s := rfl
theorem BySampling.trans {s t u : State} (h : BySampling s t) (k : BySampling t u) : BySampling s u := by
  rw [BySampling] at *; rw [k, h]

theorem ByReaders.refl (s : State) : ByReaders s s := rfl
theorem ByReaders.trans {s t u : State} (h : ByReaders s t) (k : ByReaders t u) : ByReaders s u := by
  rw [ByReaders] at *; rw [k, h]

theorem ByChannels.byTable {s t : State} (h : ByChannels s t) : ByTable s t := by
  rw [ByChannels] at h; rw [ByTable, h]
theorem ByChannels.byReaders {s t : State} (h : ByChannels s t) : ByReaders s t := by
  rw [ByChannels] at h; rw [ByReaders, h]
theorem ByQueue.bySampling {s t : State} (h : ByQueue s t) : BySampling s t := by
  rw [ByQueue] at h; rw [BySampling, h]
theorem ByQueue.byReaders {s t : State} (h : ByQueue s t) : ByReaders s t := by
  rw [ByQueue] at h; rw [ByReaders, h]

/-! ### What stays -/

theorem ByQueue.same {s t : State} (h : ByQueue s t) :
    t.tt = s.tt ∧ t.ac = s.ac ∧ t.hl = s.hl ∧ t.bu = s.bu ∧ t.lu = s.lu ∧ t.xu = s.xu ∧ t.mb = s.mb ∧ t.ib = s.ib ∧
    t.pins = s.pins ∧ t.now = s.now ∧ t.free = s.free ∧ t.pending = s.pending ∧ t.li.line = s.li.line ∧
    t.li.discards = s.li.discards ∧ t.li.good = s.li.good ∧ t.li.filter = s.li.filter ∧ t.li.synced = s.li.synced ∧
    t.li.ack = s.li.ack ∧ t.cl.station = s.cl.station ∧ t.cl.address = s.cl.address ∧ t.cl.fault = s.cl.fault ∧
    t.cl.offending = s.cl.offending ∧ t.cl.readFails = s.cl.readFails ∧ t.cl.joinTimer = s.cl.joinTimer ∧
    t.cl.joinMark = s.cl.joinMark ∧ t.cl.restartPending = s.cl.restartPending ∧
    t.cl.restartTimer = s.cl.restartTimer ∧ t.cl.retryTimer = s.cl.retryTimer ∧ t.cl.readTimer = s.cl.readTimer ∧
    t.cl.busTimer = s.cl.busTimer ∧
    t.cl.image = s.cl.image ∧ t.cl.started = s.cl.started ∧ t.cl.heldPower = s.cl.heldPower ∧
    t.cl.heldPin = s.cl.heldPin := by
  rw [ByQueue] at h
  rw [h]
  simp only [and_self]

theorem ByChannels.same {s t : State} (h : ByChannels s t) :
    t.li = s.li ∧ t.hl = s.hl ∧ t.bu = s.bu ∧ t.lu = s.lu ∧ t.xu = s.xu ∧ t.mb = s.mb ∧ t.ib = s.ib ∧ t.cl = s.cl ∧
    t.pins = s.pins ∧ t.now = s.now ∧ t.free = s.free ∧ t.pending = s.pending ∧ t.tt.entryActive = s.tt.entryActive ∧
    t.tt.entryAcc = s.tt.entryAcc ∧ t.tt.entryTag = s.tt.entryTag ∧ t.tt.sightActive = s.tt.sightActive ∧
    t.tt.sightAcc = s.tt.sightAcc ∧ t.tt.nextId = s.tt.nextId ∧ t.tt.longBoard = s.tt.longBoard ∧
    t.tt.longTimer = s.tt.longTimer ∧ t.tt.pulses = s.tt.pulses ∧ t.tt.speedWindow = s.tt.speedWindow ∧
    t.tt.speed = s.tt.speed ∧ t.tt.source = s.tt.source ∧ t.tt.stale = s.tt.stale ∧ t.tt.conflict = s.tt.conflict ∧
    t.tt.staleTimer = s.tt.staleTimer ∧ t.tt.sourceTimer = s.tt.sourceTimer ∧
    t.tt.conflictTimer = s.tt.conflictTimer ∧ t.tt.interval = s.tt.interval ∧ t.tt.overflow = s.tt.overflow ∧
    t.tt.windows = s.tt.windows ∧ t.tt.due = s.tt.due ∧ t.tt.fume = s.tt.fume := by
  rw [ByChannels] at h
  rw [h]
  simp only [and_self]

theorem ByTable.same {s t : State} (h : ByTable s t) :
    t.li = s.li ∧ t.hl = s.hl ∧ t.bu = s.bu ∧ t.lu = s.lu ∧ t.xu = s.xu ∧ t.mb = s.mb ∧ t.ib = s.ib ∧ t.cl = s.cl ∧
    t.pins = s.pins ∧ t.now = s.now ∧ t.free = s.free ∧ t.pending = s.pending ∧ t.tt.entryActive = s.tt.entryActive ∧
    t.tt.entryAcc = s.tt.entryAcc ∧ t.tt.entryTag = s.tt.entryTag ∧ t.tt.sightActive = s.tt.sightActive ∧
    t.tt.sightAcc = s.tt.sightAcc ∧ t.tt.nextId = s.tt.nextId ∧ t.tt.longBoard = s.tt.longBoard ∧
    t.tt.longTimer = s.tt.longTimer ∧ t.tt.pulses = s.tt.pulses ∧ t.tt.speedWindow = s.tt.speedWindow ∧
    t.tt.speed = s.tt.speed ∧ t.tt.source = s.tt.source ∧ t.tt.stale = s.tt.stale ∧ t.tt.conflict = s.tt.conflict ∧
    t.tt.staleTimer = s.tt.staleTimer ∧ t.tt.sourceTimer = s.tt.sourceTimer ∧
    t.tt.conflictTimer = s.tt.conflictTimer ∧ t.tt.interval = s.tt.interval := by
  rw [ByTable] at h
  rw [h]
  simp only [and_self]

theorem BySampling.same {s t : State} (h : BySampling s t) :
    t.tt = s.tt ∧ t.ac = s.ac ∧ t.hl = s.hl ∧ t.bu = s.bu ∧ t.lu = s.lu ∧ t.xu = s.xu ∧ t.ib = s.ib ∧
    t.pins = s.pins ∧ t.now = s.now ∧ t.free = s.free ∧ t.pending = s.pending ∧ t.li.line = s.li.line ∧
    t.li.discards = s.li.discards ∧ t.li.good = s.li.good ∧ t.li.filter = s.li.filter ∧ t.li.synced = s.li.synced ∧
    t.li.ack = s.li.ack ∧ t.cl.station = s.cl.station ∧ t.cl.address = s.cl.address ∧ t.cl.fault = s.cl.fault ∧
    t.cl.offending = s.cl.offending ∧ t.cl.readFails = s.cl.readFails ∧ t.cl.joinTimer = s.cl.joinTimer ∧
    t.cl.joinMark = s.cl.joinMark ∧ t.cl.restartPending = s.cl.restartPending ∧
    t.cl.restartTimer = s.cl.restartTimer ∧ t.cl.retryTimer = s.cl.retryTimer ∧ t.cl.readTimer = s.cl.readTimer ∧
    t.cl.busTimer = s.cl.busTimer ∧
    t.cl.image = s.cl.image ∧ t.cl.started = s.cl.started ∧ t.cl.heldPower = s.cl.heldPower ∧
    t.cl.heldPin = s.cl.heldPin := by
  rw [BySampling] at h
  rw [h]
  simp only [and_self]

theorem ByReaders.same {s t : State} (h : ByReaders s t) :
    t.bu = s.bu ∧ t.mb = s.mb ∧ t.pins = s.pins ∧ t.now = s.now ∧ t.free = s.free ∧ t.pending = s.pending ∧
    t.li.line = s.li.line ∧ t.li.discards = s.li.discards ∧ t.li.good = s.li.good ∧ t.li.filter = s.li.filter ∧
    t.li.synced = s.li.synced ∧ t.li.ack = s.li.ack ∧ t.cl.station = s.cl.station ∧ t.cl.address = s.cl.address ∧
    t.cl.fault = s.cl.fault ∧ t.cl.offending = s.cl.offending ∧ t.cl.readFails = s.cl.readFails ∧
    t.cl.joinTimer = s.cl.joinTimer ∧ t.cl.joinMark = s.cl.joinMark ∧ t.cl.restartPending = s.cl.restartPending ∧
    t.cl.restartTimer = s.cl.restartTimer ∧ t.cl.retryTimer = s.cl.retryTimer ∧ t.cl.readTimer = s.cl.readTimer ∧
    t.cl.busTimer = s.cl.busTimer ∧
    t.cl.image = s.cl.image ∧ t.cl.started = s.cl.started ∧ t.cl.heldPower = s.cl.heldPower ∧
    t.cl.heldPin = s.cl.heldPin ∧ t.tt.entryActive = s.tt.entryActive ∧ t.tt.entryAcc = s.tt.entryAcc ∧
    t.tt.entryTag = s.tt.entryTag ∧ t.tt.sightActive = s.tt.sightActive ∧ t.tt.sightAcc = s.tt.sightAcc ∧
    t.tt.nextId = s.tt.nextId ∧ t.tt.longBoard = s.tt.longBoard ∧ t.tt.longTimer = s.tt.longTimer ∧
    t.tt.pulses = s.tt.pulses ∧ t.tt.speedWindow = s.tt.speedWindow ∧ t.tt.speed = s.tt.speed ∧
    t.tt.source = s.tt.source ∧ t.tt.stale = s.tt.stale ∧ t.tt.conflict = s.tt.conflict ∧
    t.tt.staleTimer = s.tt.staleTimer ∧ t.tt.sourceTimer = s.tt.sourceTimer ∧
    t.tt.conflictTimer = s.tt.conflictTimer ∧ t.tt.interval = s.tt.interval ∧ t.tt.overflow = s.tt.overflow ∧
    t.tt.windows = s.tt.windows ∧ t.tt.due = s.tt.due ∧ t.tt.fume = s.tt.fume ∧ t.ib.permits = s.ib.permits ∧
    t.ib.lastStop = s.ib.lastStop ∧ t.lu.raw = s.lu.raw ∧ t.lu.valid = s.lu.valid ∧ t.lu.invalid = s.lu.invalid ∧
    t.lu.comp = s.lu.comp ∧ t.lu.request = s.lu.request ∧ t.lu.feedTimeout = s.lu.feedTimeout ∧
    t.lu.inhibit = s.lu.inhibit ∧ t.lu.levelTimer = s.lu.levelTimer ∧ t.xu.output = s.xu.output ∧
    t.xu.airflow = s.xu.airflow ∧ t.xu.timer = s.xu.timer ∧ t.xu.low = s.xu.low ∧ t.xu.loaded = s.xu.loaded ∧
    t.xu.pwm = s.xu.pwm ∧ t.hl.tcTimer = s.hl.tcTimer ∧ t.hl.zcTimer = s.hl.zcTimer ∧
    t.hl.lastCrossing = s.hl.lastCrossing ∧ t.hl.mainsLost = s.hl.mainsLost ∧ t.hl.begun = s.hl.begun := by
  rw [ByReaders] at h
  rw [h]
  simp only [and_self]

/-- A fold of steps that each stay within a relation stays within it. -/
theorem foldl_within {α : Type} (R : State → State → Prop) (hr : ∀ s, R s s)
    (ht : ∀ {s t u}, R s t → R t u → R s u) (f : State → α → State) (hf : ∀ s x, R s (f s x)) :
    ∀ (l : List α) (s : State), R s (l.foldl f s)
  | [], s => hr s
  | x :: l, s => ht (hf s x) (foldl_within R hr ht f hf l (f s x))

/-! ### Queueing -/

theorem place_within (s : State) (e : QEntry) : ByQueue s (s.place e) := by
  unfold State.place; split
  · rfl
  · split
    · rfl
    · split <;> rfl

theorem enqueueFor_within (s : State) (f : Frame) (r : Bool) : ByQueue s (s.enqueueFor f r) := by
  unfold State.enqueueFor; split
  · split
    · rfl
    · exact place_within _ _
  · rfl

theorem enqueue_within (s : State) (f : Frame) : ByQueue s (s.enqueue f) := enqueueFor_within s f false
theorem enqueueState_within (s : State) : ByQueue s s.enqueueState := enqueue_within s _
theorem enqueueJoin_within (s : State) : ByQueue s s.enqueueJoin := enqueue_within s _

/-! ### Channels -/

theorem setChan_within (s : State) (k : Chan) (c : Channel) : ByChannels s (s.setChan k c) := rfl
theorem countPulse_within (s : State) (k : Chan) : ByChannels s (s.countPulse k) := rfl
theorem markPresent_within (s : State) (k : Chan) : ByChannels s (s.markPresent k) := rfl
theorem enterOn_within (s : State) (k : Chan) : ByChannels s (s.enterOn k) := rfl

theorem synchronize_within (s : State) (k : Chan) : ByChannels s (s.synchronize k) := by
  unfold State.synchronize; dsimp only; split <;> rfl

theorem enterArmed_within (s : State) (k : Chan) : ByChannels s (s.enterArmed k) := by
  unfold State.enterArmed; dsimp only; split
  · exact (setChan_within _ _ _).trans (synchronize_within _ _)
  · split
    · exact (setChan_within _ _ _).trans ((markPresent_within _ _).trans (synchronize_within _ _))
    · rfl
  · rfl
  · rfl

theorem terminate_within (s : State) (k : Chan) (c : Cause) (st : ChanState) : ByChannels s (s.terminate k c st) := by
  unfold State.terminate; dsimp only; split <;> rfl

theorem endRun_within (s : State) (k : Chan) (c : Cause) : ByChannels s (s.endRun k c) := by
  unfold State.endRun; dsimp only; split
  · exact (terminate_within _ _ _ _).trans (enterArmed_within _ _)
  · exact terminate_within _ _ _ _

theorem enterBlocked_within (s : State) (k : Chan) : ByChannels s (s.enterBlocked k) :=
  (terminate_within s k .permit .blocked).trans (setChan_within _ _ _)

theorem pulseEnds_within (s : State) (k : Chan) : ByChannels s (s.pulseEnds k) := by
  unfold State.pulseEnds; dsimp only; split
  · exact (countPulse_within _ _).trans (endRun_within _ _ _)
  · split
    · exact (countPulse_within _ _).trans (endRun_within _ _ _)
    · rfl

theorem haltChan_within (s : State) (k : Chan) : ByChannels s (s.haltChan k) := by
  unfold State.haltChan; split
  · rfl
  · rfl
  · split
    · rfl
    · exact terminate_within _ _ _ _
  · exact terminate_within _ _ _ _

theorem stopChan_within (s : State) (k : Chan) : ByChannels s (s.stopChan k) := by
  unfold State.stopChan; split
  · rfl
  · exact terminate_within _ _ _ _

theorem startChan_within (s : State) (p : Bool) (k : Chan) : ByChannels s (s.startChan p k).1 := by
  unfold State.startChan; split
  · rfl
  · split
    · rfl
    · split
      · exact enterArmed_within _ _
      · exact enterBlocked_within _ _

theorem stopChans_within (s : State) : ByChannels s s.stopChans :=
  foldl_within ByChannels ByChannels.refl ByChannels.trans _ stopChan_within allChans s

theorem setStopped_within (s : State) : ByReaders s s.setStopped := by
  have h := stopChans_within s
  rw [ByChannels] at h
  unfold State.setStopped; rw [ByReaders, h]

/-! ### The table -/

theorem removePassed_within (s : State) : ByTable s s.removePassed := rfl
theorem evalCounts_within (s : State) : ByTable s s.evalCounts := rfl

theorem windowOpens_within (s : State) (k : Chan) : ByChannels s (s.windowOpens k) := by
  unfold State.windowOpens; split
  · exact synchronize_within _ _
  · rfl

theorem windowEmpty_within (s : State) (k : Chan) : ByChannels s (s.windowEmpty k) := by
  unfold State.windowEmpty; split
  · exact endRun_within _ _ _
  · rfl

theorem evalWindow_within (s : State) (k : Chan) : ByTable s (s.evalWindow k) := by
  unfold State.evalWindow; dsimp only
  repeat' split
  all_goals
    first
    | rfl
    | refine ByTable.trans ?_ (windowOpens_within _ _).byTable; rfl
    | refine ByTable.trans ?_ (windowEmpty_within _ _).byTable; rfl

theorem evaluate_within (s : State) : ByTable s s.evaluate :=
  ByTable.trans (t := { s with tt.table := s.tt.table.map s.markMissed }) rfl
    ((removePassed_within _).trans
      ((foldl_within ByTable ByTable.refl ByTable.trans _ evalWindow_within allChans _).trans (evalCounts_within _)))

theorem create_within (s : State) (r : BoardRec) : ByTable s (s.create r) := by
  unfold State.create; split
  · rfl
  · dsimp only; split
    · rfl
    · split
      · rfl
      · refine ByTable.trans ?_ (evaluate_within _); rfl

theorem correct_within (s : State) (i lead : Nat) (f : BoardRec → BoardRec) : ByTable s (s.correct i lead f) := by
  unfold State.correct; refine ByTable.trans ?_ (evaluate_within _); rfl

theorem removeId_within (s : State) (id : Byte) : ByTable s (s.removeId id) := by
  unfold State.removeId; split
  · refine ByTable.trans ?_ (evaluate_within _); rfl
  · rfl

theorem entryArrives_within (s : State) (c : EntryContent) : ByTable s (s.entryArrives c) := by
  unfold State.entryArrives; dsimp only; split
  · rfl
  · exact (removeId_within _ _).trans (create_within _ _)

theorem peerLead_within (s : State) (id : Byte) (p : Nat) : ByTable s (s.peerLead id p) := by
  unfold State.peerLead; split
  · split
    · exact create_within _ _
    · split
      · exact correct_within _ _ _ _
      · rfl
  · exact create_within _ _

theorem peerTrail_within (s : State) (id : Byte) (p m : Nat) : ByTable s (s.peerTrail id p m) := by
  unfold State.peerTrail; dsimp only; split
  · rfl
  · split
    · split
      · exact correct_within _ _ _ _
      · exact create_within _ _
    · split
      · split
        · exact correct_within _ _ _ _
        · rfl
      · exact create_within _ _

/-! ### The readers -/

theorem formCell_within (s : State) (i : Ix8) : ByReaders s (s.formCell i) := by
  unfold State.formCell; dsimp only; split <;> rfl

theorem formCells_within (s : State) : ByReaders s s.formCells := by
  unfold State.formCells; split
  · exact foldl_within ByReaders ByReaders.refl ByReaders.trans _ formCell_within all8 s
  · rfl

theorem loopFollows_within (s : State) (i : LoopIx) : ByReaders s (s.loopFollows i) := by
  unfold State.loopFollows; split <;> rfl

theorem permitLost_within (s : State) (k : Chan) : ByChannels s (s.permitLost k) := by
  unfold State.permitLost; split
  · exact enterBlocked_within _ _
  · exact enterBlocked_within _ _
  · exact enterBlocked_within _ _
  · exact enterBlocked_within _ _
  · rfl
  · rfl

theorem permitReturns_within (s : State) (k : Chan) : ByChannels s (s.permitReturns k) := by
  unfold State.permitReturns; split
  · exact (markPresent_within _ _).trans (enterArmed_within _ _)
  · rfl

theorem channelsFollow_within (s p : State) : ByChannels s (s.channelsFollow p) := by
  unfold State.channelsFollow; split
  · refine foldl_within ByChannels ByChannels.refl ByChannels.trans _ (fun t k => ?_) allChans s
    split
    · exact permitReturns_within _ _
    · exact permitLost_within _ _
  · rfl

theorem driveStop_within (s : State) : ByReaders s s.driveStop := by
  unfold State.driveStop; dsimp only; split
  · rfl
  · split <;> rfl

/-- The stop unit's own fields are the readers'. -/
theorem ByReaders.stopUnit {s t : State} (h : ByReaders s t) (u : StopUnit) (x : Timer) :
    ByReaders s { t with ib.stopUnit := u, ib.triggerTimer := x } := by
  rw [ByReaders] at h ⊢; rw [h]

/-- The feeder's own fields are the readers'. -/
theorem ByReaders.feeder {s t : State} (h : ByReaders s t) (f : Feeder) (x : Timer) :
    ByReaders s { t with lu.feeder := f, lu.feedTimer := x } := by
  rw [ByReaders] at h ⊢; rw [h]

theorem trigger_within (s : State) : ByReaders s s.trigger :=
  (((setStopped_within s).trans (driveStop_within _)).trans
    (enqueue_within _ (.stop s.stopCauses)).byReaders).stopUnit _ _

theorem stopFollows_within (s : State) : ByReaders s s.stopFollows := by
  unfold State.stopFollows; split
  · split
    · split
      · exact trigger_within _
      · rfl
    · rfl
    · rfl
    · rfl
  · rfl

theorem waveFollows_within (s : State) : ByReaders s s.waveFollows := by
  unfold State.waveFollows; split <;> rfl

theorem ownerStart_within (s : State) (k : Chan) : ByChannels s (s.ownerStart k).1 := by
  unfold State.ownerStart; split
  · exact startChan_within _ _ _
  · rfl

theorem feedStart_within (s : State) : ByReaders s s.feedStart := by
  unfold State.feedStart; split
  · rfl
  · exact (ownerStart_within _ _).byReaders.feeder _ _

theorem feedHalt_within (s : State) : ByReaders s s.feedHalt := by
  unfold State.feedHalt; dsimp only; split
  · rfl
  · exact (haltChan_within _ _).byReaders.feeder _ _

theorem feedFollows_within (s : State) : ByReaders s s.feedFollows := by
  unfold State.feedFollows; split
  · split
    · refine ByReaders.trans ?_ (feedStart_within _); rfl
    · rfl
  · split
    · rfl
    · exact feedHalt_within _
  · split
    · split
      · exact feedStart_within _
      · rfl
    · exact feedHalt_within _

theorem extractionFollows_within (s : State) : ByReaders s s.extractionFollows := by
  unfold State.extractionFollows; dsimp only; split <;> rfl

theorem blocksFollow_within (s : State) : ByReaders s s.blocksFollow :=
  (loopFollows_within s 0).trans ((loopFollows_within _ 1).trans ((feedFollows_within _).trans
    ((waveFollows_within _).trans (extractionFollows_within _))))

theorem round_within (s : State) : ByReaders s s.round :=
  (blocksFollow_within s).trans ((formCells_within _).trans ((channelsFollow_within _ _).byReaders.trans
    ((blocksFollow_within _).trans (formCells_within _))))

theorem settle_within : ∀ (n : Nat) (s : State), ByReaders s (settle n s)
  | 0, s => (stopFollows_within s).trans ((blocksFollow_within _).trans (formCells_within _))
  | n + 1, s => by
    have h := (round_within s).trans (stopFollows_within _)
    unfold settle; split
    · exact (round_within s).trans (settle_within n _)
    · split
      · exact h.trans (settle_within n _)
      · exact h

/-! ### Sampling -/

theorem queueAlarm_within (s : State) (i : Ix8) (r : Bool) : ByQueue s (s.queueAlarm i r) := by
  unfold State.queueAlarm; dsimp only; split
  · exact (enqueue_within _ _).trans (enqueueState_within _)
  · exact enqueue_within _ _

theorem queueAlarms_within (s : State) (b : Vector Point 8) : ByQueue s (s.queueAlarms b) := by
  refine foldl_within ByQueue ByQueue.refl ByQueue.trans _ (fun t i => ?_) all8 s
  split
  · rfl
  · exact queueAlarm_within _ _ _

theorem raiseLine_within (s : State) (r : Bool) : BySampling s (s.raiseLine r) := by
  unfold State.raiseLine; split <;> rfl

theorem sample_within (s : State) (e : List (Option Update)) : BySampling s (s.sample e) :=
  BySampling.trans (t := { s with mb.points := sampledPoints s e }) rfl
    ((raiseLine_within _ _).trans (queueAlarms_within _ _).bySampling)

/-- The reset of a RESTART leads out of OPERATING and CONFLICT (R176, R178). -/
theorem restart_inactive (s : State) : s.restart.active = false := by
  unfold State.restart State.beginLoading
  split <;> rfl

end Sys2Proof.Machine
end

