-- ==== Sys2Proof/Laws/State.lean ====
section
/-! SUPPORT. What each named update of the state leaves in each of its fields, so that no proof unfolds a record update. -/

namespace Sys2Proof.Machine

/-! ### setChan -/

@[simp] theorem setChan_li (s : State) (k : Chan) (c : Channel) : (s.setChan k c).li = s.li := rfl
@[simp] theorem setChan_tt (s : State) (k : Chan) (c : Channel) : (s.setChan k c).tt = s.tt := rfl
@[simp] theorem setChan_ac (s : State) (k : Chan) (c : Channel) : (s.setChan k c).ac = s.ac.set k c := rfl
@[simp] theorem setChan_hl (s : State) (k : Chan) (c : Channel) : (s.setChan k c).hl = s.hl := rfl
@[simp] theorem setChan_bu (s : State) (k : Chan) (c : Channel) : (s.setChan k c).bu = s.bu := rfl
@[simp] theorem setChan_lu (s : State) (k : Chan) (c : Channel) : (s.setChan k c).lu = s.lu := rfl
@[simp] theorem setChan_xu (s : State) (k : Chan) (c : Channel) : (s.setChan k c).xu = s.xu := rfl
@[simp] theorem setChan_mb (s : State) (k : Chan) (c : Channel) : (s.setChan k c).mb = s.mb := rfl
@[simp] theorem setChan_ib (s : State) (k : Chan) (c : Channel) : (s.setChan k c).ib = s.ib := rfl
@[simp] theorem setChan_cl (s : State) (k : Chan) (c : Channel) : (s.setChan k c).cl = s.cl := rfl
@[simp] theorem setChan_pins (s : State) (k : Chan) (c : Channel) : (s.setChan k c).pins = s.pins := rfl
@[simp] theorem setChan_now (s : State) (k : Chan) (c : Channel) : (s.setChan k c).now = s.now := rfl
@[simp] theorem setChan_free (s : State) (k : Chan) (c : Channel) : (s.setChan k c).free = s.free := rfl
@[simp] theorem setChan_pending (s : State) (k : Chan) (c : Channel) : (s.setChan k c).pending = s.pending := rfl

/-! ### setLoop -/

@[simp] theorem setLoop_li (s : State) (i : LoopIx) (l : HeatLoop) : (s.setLoop i l).li = s.li := rfl
@[simp] theorem setLoop_tt (s : State) (i : LoopIx) (l : HeatLoop) : (s.setLoop i l).tt = s.tt := rfl
@[simp] theorem setLoop_ac (s : State) (i : LoopIx) (l : HeatLoop) : (s.setLoop i l).ac = s.ac := rfl
@[simp] theorem setLoop_hl (s : State) (i : LoopIx) (l : HeatLoop) :
    (s.setLoop i l).hl = { s.hl with loops := s.hl.loops.set i l } := rfl
@[simp] theorem setLoop_bu (s : State) (i : LoopIx) (l : HeatLoop) : (s.setLoop i l).bu = s.bu := rfl
@[simp] theorem setLoop_lu (s : State) (i : LoopIx) (l : HeatLoop) : (s.setLoop i l).lu = s.lu := rfl
@[simp] theorem setLoop_xu (s : State) (i : LoopIx) (l : HeatLoop) : (s.setLoop i l).xu = s.xu := rfl
@[simp] theorem setLoop_mb (s : State) (i : LoopIx) (l : HeatLoop) : (s.setLoop i l).mb = s.mb := rfl
@[simp] theorem setLoop_ib (s : State) (i : LoopIx) (l : HeatLoop) : (s.setLoop i l).ib = s.ib := rfl
@[simp] theorem setLoop_cl (s : State) (i : LoopIx) (l : HeatLoop) : (s.setLoop i l).cl = s.cl := rfl
@[simp] theorem setLoop_pins (s : State) (i : LoopIx) (l : HeatLoop) : (s.setLoop i l).pins = s.pins := rfl
@[simp] theorem setLoop_now (s : State) (i : LoopIx) (l : HeatLoop) : (s.setLoop i l).now = s.now := rfl
@[simp] theorem setLoop_free (s : State) (i : LoopIx) (l : HeatLoop) : (s.setLoop i l).free = s.free := rfl
@[simp] theorem setLoop_pending (s : State) (i : LoopIx) (l : HeatLoop) : (s.setLoop i l).pending = s.pending := rfl

/-! ### countTotal -/

@[simp] theorem countTotal_li (s : State) (i : Fin 5) : (s.countTotal i).li = s.li := rfl
@[simp] theorem countTotal_tt (s : State) (i : Fin 5) :
    (s.countTotal i).tt = { s.tt with totals := s.tt.totals.set i s.tt.totals[i].incr } := rfl
@[simp] theorem countTotal_ac (s : State) (i : Fin 5) : (s.countTotal i).ac = s.ac := rfl
@[simp] theorem countTotal_hl (s : State) (i : Fin 5) : (s.countTotal i).hl = s.hl := rfl
@[simp] theorem countTotal_bu (s : State) (i : Fin 5) : (s.countTotal i).bu = s.bu := rfl
@[simp] theorem countTotal_lu (s : State) (i : Fin 5) : (s.countTotal i).lu = s.lu := rfl
@[simp] theorem countTotal_xu (s : State) (i : Fin 5) : (s.countTotal i).xu = s.xu := rfl
@[simp] theorem countTotal_mb (s : State) (i : Fin 5) : (s.countTotal i).mb = s.mb := rfl
@[simp] theorem countTotal_ib (s : State) (i : Fin 5) : (s.countTotal i).ib = s.ib := rfl
@[simp] theorem countTotal_cl (s : State) (i : Fin 5) : (s.countTotal i).cl = s.cl := rfl
@[simp] theorem countTotal_pins (s : State) (i : Fin 5) : (s.countTotal i).pins = s.pins := rfl
@[simp] theorem countTotal_now (s : State) (i : Fin 5) : (s.countTotal i).now = s.now := rfl
@[simp] theorem countTotal_free (s : State) (i : Fin 5) : (s.countTotal i).free = s.free := rfl
@[simp] theorem countTotal_pending (s : State) (i : Fin 5) : (s.countTotal i).pending = s.pending := rfl

/-! ### markPresent -/

@[simp] theorem markPresent_li (s : State) (k : Chan) : (s.markPresent k).li = s.li := rfl
@[simp] theorem markPresent_ac (s : State) (k : Chan) : (s.markPresent k).ac = s.ac := rfl
@[simp] theorem markPresent_hl (s : State) (k : Chan) : (s.markPresent k).hl = s.hl := rfl
@[simp] theorem markPresent_bu (s : State) (k : Chan) : (s.markPresent k).bu = s.bu := rfl
@[simp] theorem markPresent_lu (s : State) (k : Chan) : (s.markPresent k).lu = s.lu := rfl
@[simp] theorem markPresent_xu (s : State) (k : Chan) : (s.markPresent k).xu = s.xu := rfl
@[simp] theorem markPresent_mb (s : State) (k : Chan) : (s.markPresent k).mb = s.mb := rfl
@[simp] theorem markPresent_ib (s : State) (k : Chan) : (s.markPresent k).ib = s.ib := rfl
@[simp] theorem markPresent_cl (s : State) (k : Chan) : (s.markPresent k).cl = s.cl := rfl
@[simp] theorem markPresent_pins (s : State) (k : Chan) : (s.markPresent k).pins = s.pins := rfl
@[simp] theorem markPresent_now (s : State) (k : Chan) : (s.markPresent k).now = s.now := rfl
@[simp] theorem markPresent_free (s : State) (k : Chan) : (s.markPresent k).free = s.free := rfl
@[simp] theorem markPresent_pending (s : State) (k : Chan) : (s.markPresent k).pending = s.pending := rfl

/-! ### acked -/

@[simp] theorem acked_li (s : State) :
    (s.acked).li = { s.li with ack := true, good := if s.li.line = .mute then s.li.good + 1 else s.li.good } := rfl
@[simp] theorem acked_tt (s : State) : (s.acked).tt = s.tt := rfl
@[simp] theorem acked_ac (s : State) : (s.acked).ac = s.ac := rfl
@[simp] theorem acked_hl (s : State) : (s.acked).hl = s.hl := rfl
@[simp] theorem acked_bu (s : State) : (s.acked).bu = s.bu := rfl
@[simp] theorem acked_lu (s : State) : (s.acked).lu = s.lu := rfl
@[simp] theorem acked_xu (s : State) : (s.acked).xu = s.xu := rfl
@[simp] theorem acked_mb (s : State) : (s.acked).mb = s.mb := rfl
@[simp] theorem acked_ib (s : State) : (s.acked).ib = s.ib := rfl
@[simp] theorem acked_cl (s : State) : (s.acked).cl = s.cl := rfl
@[simp] theorem acked_pins (s : State) : (s.acked).pins = s.pins := rfl
@[simp] theorem acked_now (s : State) : (s.acked).now = s.now := rfl
@[simp] theorem acked_free (s : State) : (s.acked).free = s.free := rfl
@[simp] theorem acked_pending (s : State) : (s.acked).pending = s.pending := rfl

/-! ### complete -/

@[simp] theorem complete_tt (s : State) : (s.complete).tt = s.tt := rfl
@[simp] theorem complete_ac (s : State) : (s.complete).ac = s.ac := rfl
@[simp] theorem complete_hl (s : State) : (s.complete).hl = s.hl := rfl
@[simp] theorem complete_bu (s : State) : (s.complete).bu = s.bu := rfl
@[simp] theorem complete_lu (s : State) : (s.complete).lu = s.lu := rfl
@[simp] theorem complete_xu (s : State) : (s.complete).xu = s.xu := rfl
@[simp] theorem complete_mb (s : State) : (s.complete).mb = s.mb := rfl
@[simp] theorem complete_ib (s : State) : (s.complete).ib = s.ib := rfl
@[simp] theorem complete_cl (s : State) :
    (s.complete).cl = { s.cl with resetDue := s.cl.resetDue || s.restartInFlight } := rfl
@[simp] theorem complete_pins (s : State) : (s.complete).pins = s.pins := rfl
@[simp] theorem complete_now (s : State) : (s.complete).now = s.now := rfl
@[simp] theorem complete_free (s : State) : (s.complete).free = s.free := rfl
@[simp] theorem complete_pending (s : State) : (s.complete).pending = s.pending := rfl

/-! ### enterMute -/

@[simp] theorem enterMute_li (s : State) :
    (s.enterMute).li = { s.li with line := .mute, queue := [], discards := 0, good := 0 } := rfl
@[simp] theorem enterMute_tt (s : State) : (s.enterMute).tt = s.tt := rfl
@[simp] theorem enterMute_ac (s : State) : (s.enterMute).ac = s.ac := rfl
@[simp] theorem enterMute_hl (s : State) : (s.enterMute).hl = s.hl := rfl
@[simp] theorem enterMute_bu (s : State) : (s.enterMute).bu = s.bu := rfl
@[simp] theorem enterMute_lu (s : State) : (s.enterMute).lu = s.lu := rfl
@[simp] theorem enterMute_xu (s : State) : (s.enterMute).xu = s.xu := rfl
@[simp] theorem enterMute_mb (s : State) : (s.enterMute).mb = s.mb := rfl
@[simp] theorem enterMute_ib (s : State) : (s.enterMute).ib = s.ib := rfl
@[simp] theorem enterMute_cl (s : State) : (s.enterMute).cl = s.cl := rfl
@[simp] theorem enterMute_pins (s : State) : (s.enterMute).pins = s.pins := rfl
@[simp] theorem enterMute_now (s : State) : (s.enterMute).now = s.now := rfl
@[simp] theorem enterMute_free (s : State) : (s.enterMute).free = s.free := rfl
@[simp] theorem enterMute_pending (s : State) : (s.enterMute).pending = s.pending := rfl

/-! ### blockReset -/

@[simp] theorem blockReset_li (s : State) : (s.blockReset).li = LineInterface.reset := rfl
@[simp] theorem blockReset_tt (s : State) : (s.blockReset).tt = Tracker.reset := rfl
@[simp] theorem blockReset_ac (s : State) : (s.blockReset).ac = Vector.replicate 4 Channel.reset := rfl
@[simp] theorem blockReset_hl (s : State) : (s.blockReset).hl = HeatLoops.reset := rfl
@[simp] theorem blockReset_bu (s : State) : (s.blockReset).bu = Budget.reset := rfl
@[simp] theorem blockReset_lu (s : State) : (s.blockReset).lu = LevelUnit.reset := rfl
@[simp] theorem blockReset_xu (s : State) : (s.blockReset).xu = ExtractionUnit.reset := rfl
@[simp] theorem blockReset_mb (s : State) : (s.blockReset).mb = Monitor.reset := rfl
@[simp] theorem blockReset_ib (s : State) : (s.blockReset).ib = Interlock.reset := rfl
@[simp] theorem blockReset_cl (s : State) :
    (s.blockReset).cl = { Loader.reset with heldPower := s.cl.heldPower, heldPin := s.cl.heldPin } := rfl
@[simp] theorem blockReset_pins (s : State) : (s.blockReset).pins = s.pins := rfl
@[simp] theorem blockReset_now (s : State) : (s.blockReset).now = s.now := rfl
@[simp] theorem blockReset_free (s : State) : (s.blockReset).free = s.free := rfl
@[simp] theorem blockReset_pending (s : State) : (s.blockReset).pending = s.pending := rfl

/-! ### beginRead -/

@[simp] theorem beginRead_cl (s : State) :
    (s.beginRead).cl = { s.cl with readTimer := some 100, busTimer := some 10 } := rfl
@[simp] theorem beginRead_li (s : State) : (s.beginRead).li = s.li := rfl
@[simp] theorem beginRead_tt (s : State) : (s.beginRead).tt = s.tt := rfl
@[simp] theorem beginRead_ac (s : State) : (s.beginRead).ac = s.ac := rfl
@[simp] theorem beginRead_hl (s : State) : (s.beginRead).hl = s.hl := rfl
@[simp] theorem beginRead_bu (s : State) : (s.beginRead).bu = s.bu := rfl
@[simp] theorem beginRead_lu (s : State) : (s.beginRead).lu = s.lu := rfl
@[simp] theorem beginRead_xu (s : State) : (s.beginRead).xu = s.xu := rfl
@[simp] theorem beginRead_mb (s : State) : (s.beginRead).mb = s.mb := rfl
@[simp] theorem beginRead_ib (s : State) : (s.beginRead).ib = s.ib := rfl
@[simp] theorem beginRead_pins (s : State) : (s.beginRead).pins = s.pins := rfl
@[simp] theorem beginRead_now (s : State) : (s.beginRead).now = s.now := rfl
@[simp] theorem beginRead_free (s : State) : (s.beginRead).free = s.free := rfl
@[simp] theorem beginRead_pending (s : State) : (s.beginRead).pending = s.pending := rfl

/-! ### Vectors of two -/

/-- A vector of two with its first member replaced. -/
theorem set_first {α : Type} (v : Vector α 2) (a : α) : v.set (0 : Fin 2) a = #v[a, v[(1 : Fin 2)]] := by
  ext j hj
  match j, hj with
  | 0, _ => simp
  | 1, _ => simp

/-- A vector of two with its second member replaced. -/
theorem set_second {α : Type} (v : Vector α 2) (a : α) : v.set (1 : Fin 2) a = #v[v[(0 : Fin 2)], a] := by
  ext j hj
  match j, hj with
  | 0, _ => simp
  | 1, _ => simp

/-- A vector of two from its members. -/
theorem both_members {α : Type} (v : Vector α 2) : #v[v[(0 : Fin 2)], v[(1 : Fin 2)]] = v := by
  ext j hj
  match j, hj with
  | 0, _ => simp
  | 1, _ => simp

/-! ### momentEnds -/

@[simp] theorem momentEnds_li (s : State) : (s.momentEnds).li = s.li := rfl
@[simp] theorem momentEnds_tt (s : State) : (s.momentEnds).tt = s.tt := rfl
@[simp] theorem momentEnds_ac (s : State) : (s.momentEnds).ac = s.ac := rfl
@[simp] theorem momentEnds_hl (s : State) : (s.momentEnds).hl = s.hl := rfl
@[simp] theorem momentEnds_bu (s : State) : (s.momentEnds).bu = s.bu := rfl
@[simp] theorem momentEnds_lu (s : State) : (s.momentEnds).lu = s.lu := rfl
@[simp] theorem momentEnds_xu (s : State) : (s.momentEnds).xu = s.xu := rfl
@[simp] theorem momentEnds_mb (s : State) : (s.momentEnds).mb = s.mb := rfl
@[simp] theorem momentEnds_ib (s : State) : (s.momentEnds).ib = s.ib := rfl
@[simp] theorem momentEnds_cl (s : State) : (s.momentEnds).cl = s.cl := rfl
@[simp] theorem momentEnds_pins (s : State) : (s.momentEnds).pins = s.pins := rfl
@[simp] theorem momentEnds_free (s : State) : (s.momentEnds).free = s.free := rfl
@[simp] theorem momentEnds_pending (s : State) : (s.momentEnds).pending = s.pending := rfl
@[simp] theorem momentEnds_now (s : State) :
    (s.momentEnds).now = { s.now with moment := s.now.moment + 1 } := rfl

end Sys2Proof.Machine
end

