-- ==== Sys2Proof/Laws/Channels.lean ====
section
/-! SUPPORT. What the transitions of the channels do to the channel named and to the others (chapter 4). -/

namespace Sys2Proof.Machine

/-! ### One channel at a time -/

@[simp] theorem setChan_self (s : State) (k : Chan) (c : Channel) : (s.setChan k c).ac[k] = c := by
  simp [State.setChan]

theorem setChan_other (s : State) {j k : Chan} (h : j ≠ k) (c : Channel) : (s.setChan k c).ac[j] = s.ac[j] := by
  have : k.val ≠ j.val := fun e => h (Fin.ext e.symm)
  simp [State.setChan, this]

theorem countPulse_self (s : State) (k : Chan) :
    (s.countPulse k).ac[k] = { s.ac[k] with pulses := min 65535 (s.ac[k].pulses + 1) } := by
  rw [State.countPulse, countTotal_ac, setChan_self]

theorem countPulse_other (s : State) {j k : Chan} (h : j ≠ k) : (s.countPulse k).ac[j] = s.ac[j] := by
  rw [State.countPulse, countTotal_ac, setChan_other s h]

theorem enterOn_other (s : State) {j k : Chan} (h : j ≠ k) : (s.enterOn k).ac[j] = s.ac[j] := setChan_other s h _

theorem synchronize_other (s : State) {j k : Chan} (h : j ≠ k) : (s.synchronize k).ac[j] = s.ac[j] := by
  unfold State.synchronize
  dsimp only
  split
  · rw [enterOn_other _ h, setChan_other _ h]
  · rw [setChan_other _ h, setChan_other _ h]

theorem enterArmed_other (s : State) {j k : Chan} (h : j ≠ k) : (s.enterArmed k).ac[j] = s.ac[j] := by
  unfold State.enterArmed
  dsimp only
  split
  · rw [synchronize_other _ h, setChan_other _ h]
  · split
    · rw [synchronize_other _ h, markPresent_ac, setChan_other _ h]
    · rw [setChan_other _ h]
  · rw [setChan_other _ h]
  · rw [setChan_other _ h]

theorem terminate_other (s : State) {j k : Chan} (h : j ≠ k) (c : Cause) (st : ChanState) :
    (s.terminate k c st).ac[j] = s.ac[j] := by
  unfold State.terminate
  dsimp only
  rw [setChan_other _ h]
  split
  · exact countPulse_other s h
  · rfl

/-- A termination puts the channel into its state with the cause, its timer stopped and no context; the pulse of a steady
channel in ON is counted (R69, R70). -/
theorem terminate_self (s : State) (k : Chan) (c : Cause) (st : ChanState) :
    (s.terminate k c st).ac[k] =
      { s.ac[k] with
        st := st, timer := none, saved := none, cause := c
        pulses := if s.steadyOn k then min 65535 (s.ac[k].pulses + 1) else s.ac[k].pulses } := by
  unfold State.terminate
  dsimp only
  rw [setChan_self]
  split
  · rw [countPulse_self]
  · rfl

theorem endRun_other (s : State) {j k : Chan} (h : j ≠ k) (c : Cause) : (s.endRun k c).ac[j] = s.ac[j] := by
  unfold State.endRun
  dsimp only
  split
  · rw [enterArmed_other _ h, terminate_other _ h]
  · exact terminate_other s h c .idle

theorem enterBlocked_other (s : State) {j k : Chan} (h : j ≠ k) : (s.enterBlocked k).ac[j] = s.ac[j] := by
  unfold State.enterBlocked
  dsimp only
  rw [setChan_other _ h, terminate_other _ h]

theorem pulseEnds_other (s : State) {j k : Chan} (h : j ≠ k) : (s.pulseEnds k).ac[j] = s.ac[j] := by
  unfold State.pulseEnds
  dsimp only
  split
  · rw [endRun_other _ h, countPulse_other _ h]
  · split
    · rw [endRun_other _ h, countPulse_other _ h]
    · rw [setChan_other _ h, countPulse_other _ h]

theorem haltChan_other (s : State) {j k : Chan} (h : j ≠ k) : (s.haltChan k).ac[j] = s.ac[j] := by
  unfold State.haltChan
  split
  · rfl
  · rfl
  · split
    · exact setChan_other s h _
    · exact terminate_other s h _ _
  · exact terminate_other s h _ _

theorem stopChan_other (s : State) {j k : Chan} (h : j ≠ k) : (s.stopChan k).ac[j] = s.ac[j] := by
  unfold State.stopChan
  split
  · rfl
  · exact terminate_other s h _ _

theorem startChan_other (s : State) (p : Bool) {j k : Chan} (h : j ≠ k) : (s.startChan p k).1.ac[j] = s.ac[j] := by
  unfold State.startChan
  split
  · rfl
  · split
    · rfl
    · split
      · exact enterArmed_other s h
      · exact enterBlocked_other s h

theorem permitLost_other (s : State) {j k : Chan} (h : j ≠ k) : (s.permitLost k).ac[j] = s.ac[j] := by
  unfold State.permitLost
  split
  · exact enterBlocked_other s h
  · exact enterBlocked_other s h
  · exact enterBlocked_other s h
  · exact enterBlocked_other s h
  · exact setChan_other s h _
  · rfl

theorem permitReturns_other (s : State) {j k : Chan} (h : j ≠ k) : (s.permitReturns k).ac[j] = s.ac[j] := by
  unfold State.permitReturns
  split
  · rw [enterArmed_other _ h, markPresent_ac]
  · rfl

theorem windowOpens_other (s : State) {j k : Chan} (h : j ≠ k) : (s.windowOpens k).ac[j] = s.ac[j] := by
  unfold State.windowOpens
  split
  · exact synchronize_other s h
  · rfl

theorem windowEmpty_other (s : State) {j k : Chan} (h : j ≠ k) : (s.windowEmpty k).ac[j] = s.ac[j] := by
  unfold State.windowEmpty
  split
  · exact endRun_other s h _
  · rfl

/-! ### Stopping every channel (R76) -/

theorem stopChan_idle (s : State) (k : Chan) : (s.stopChan k).ac[k].st = .idle := by
  unfold State.stopChan
  split
  · assumption
  · rw [terminate_self]

/-- After a stop of every channel each is IDLE. -/
theorem stopChans_idle (s : State) (k : Chan) : s.stopChans.ac[k].st = .idle := by
  simp only [State.stopChans, allChans, List.foldl_cons, List.foldl_nil]
  by_cases h3 : k = 3
  · subst h3; exact stopChan_idle _ 3
  rw [stopChan_other _ h3]
  by_cases h2 : k = 2
  · subst h2; exact stopChan_idle _ 2
  rw [stopChan_other _ h2]
  by_cases h1 : k = 1
  · subst h1; exact stopChan_idle _ 1
  rw [stopChan_other _ h1]
  have h0 : k = 0 := by
    revert h1 h2 h3; revert k; decide
  subst h0; exact stopChan_idle _ 0

theorem setStopped_ac (s : State) : s.setStopped.ac = s.stopChans.ac := by simp only [State.setStopped]

/-- A termination leaves the records alone; a start marks them. -/
theorem terminate_table (s : State) (k : Chan) (c : Cause) (st : ChanState) :
    (s.terminate k c st).tt.table = s.tt.table := by
  unfold State.terminate
  dsimp only [State.setChan]
  split <;> rfl

theorem stopChan_table (s : State) (k : Chan) : (s.stopChan k).tt.table = s.tt.table := by
  unfold State.stopChan
  split
  · rfl
  · exact terminate_table s k _ _

theorem stopChans_table (s : State) : s.stopChans.tt.table = s.tt.table := by
  simp only [State.stopChans, allChans, List.foldl_cons, List.foldl_nil, stopChan_table]

theorem haltChan_table (s : State) (k : Chan) : (s.haltChan k).tt.table = s.tt.table := by
  unfold State.haltChan
  split
  · rfl
  · rfl
  · split
    · rfl
    · exact terminate_table s k _ _
  · exact terminate_table s k _ _

theorem setStopped_idle (s : State) (k : Chan) : s.setStopped.ac[k].st = .idle := by
  rw [setStopped_ac]; exact stopChans_idle s k

/-! ### What the channel named becomes -/

theorem chanCfg_eq (s : State) (k : Chan) : s.chanCfg k = s.cl.image.chans[k] := rfl

theorem enterOn_self (s : State) (k : Chan) :
    (s.enterOn k).ac[k] =
      { s.ac[k] with st := .on, timer := if (s.chanCfg k).steady then none else some (s.chanCfg k).onMs } := by
  rw [State.enterOn, setChan_self]

/-- A synchronization begins a run (R65). -/
theorem synchronize_self (s : State) (k : Chan) : (s.synchronize k).ac[k] = s.ac[k].begins (s.chanCfg k) := by
  have hc : ∀ c, (s.setChan k c).chanCfg k = s.chanCfg k := fun _ => rfl
  unfold State.synchronize
  dsimp only
  split
  · rename_i h
    have h' : (s.chanCfg k).delay * (s.chanCfg k).periodBase = 0 := h
    simp only [enterOn_self, setChan_self, hc, Channel.begins, h', if_true, ChanCfg.steady, ChanCfg.onMs,
      decide_eq_true_eq]
  · rename_i h
    have h' : ¬(s.chanCfg k).delay * (s.chanCfg k).periodBase = 0 := h
    simp only [setChan_self, Channel.begins, h', if_false, ChanCfg.delayMs]

/-- An entry to ARMED, with its test for a synchronization already present (R62). -/
theorem enterArmed_self (s : State) (k : Chan) :
    (s.enterArmed k).ac[k] = s.ac[k].arms (s.chanCfg k) (s.unservedPresent k) := by
  have hc : ∀ c, (s.setChan k c).chanCfg k = s.chanCfg k := fun _ => rfl
  have hu : ∀ c, (s.setChan k c).unservedPresent k = s.unservedPresent k := fun _ => rfl
  have hm : ∀ t : State, (t.markPresent k).chanCfg k = t.chanCfg k := fun _ => rfl
  unfold State.enterArmed Channel.arms
  dsimp only
  cases (s.chanCfg k).mode
  · simp only [setChan_self]
  · simp only [synchronize_self, setChan_self, hc]
  · simp only [hu]
    split
    · simp only [synchronize_self, markPresent_ac, setChan_self, hc, hm]
    · simp only [setChan_self]
  · simp only [setChan_self]

theorem terminate_stopsIn (s : State) (k : Chan) (c : Cause) (st : ChanState) :
    (s.terminate k c st).ac[k] = s.ac[k].stopsIn (s.chanCfg k) c st := by
  rw [terminate_self, Channel.stopsIn]
  simp only [State.steadyOn, ChanCfg.steady, Bool.and_eq_true, decide_eq_true_eq]

theorem terminate_unserved (s : State) (k j : Chan) (c : Cause) (st : ChanState) :
    (s.terminate k c st).unservedPresent j = s.unservedPresent j := by
  have h := (terminate_within s k c st).same
  unfold State.unservedPresent
  rw [terminate_table]
  simp only [h]

/-- The end of a run with its follow action (R70, R73). -/
theorem endRun_self (s : State) (k : Chan) (c : Cause) (hc : c = .count ∨ c = .single ∨ c = .window ∨ c = .inputEnd) :
    (s.endRun k c).ac[k] = (s.ac[k].stopsIn (s.chanCfg k) c .idle).ends (s.chanCfg k) (s.unservedPresent k) c := by
  have h := (terminate_within s k c .idle).same
  have hcfg : (s.terminate k c .idle).chanCfg k = s.chanCfg k := by
    unfold State.chanCfg
    simp only [h]
  unfold State.endRun
  dsimp only
  have hx : { s.ac[k].stopsIn (s.chanCfg k) c .idle with st := .idle, timer := none, saved := none, cause := c } =
      s.ac[k].stopsIn (s.chanCfg k) c .idle := rfl
  split
  · rename_i hr
    rw [enterArmed_self, terminate_stopsIn, hcfg, terminate_unserved]
    rcases hc with rfl | rfl | rfl | rfl <;> (simp only [rearms] at hr; simp only [Channel.ends, hr, if_true, hx])
  · rename_i hr
    rw [terminate_stopsIn]
    rcases hc with rfl | rfl | rfl | rfl <;>
      (simp only [rearms, Bool.not_eq_true] at hr; simp only [Channel.ends, hr, hx, Bool.false_eq_true, if_false])

/-- The end of a pulse of a channel that is not steady (R67). -/
theorem pulseEnds_self (s : State) (k : Chan) (h : (s.chanCfg k).onTime ≠ 0) :
    (s.pulseEnds k).ac[k] = s.ac[k].pulsed (s.chanCfg k) (s.unservedPresent k) := by
  have hc : (s.countPulse k).chanCfg k = s.chanCfg k := rfl
  have hu : (s.countPulse k).unservedPresent k = s.unservedPresent k := rfl
  have hst : ∀ (x : Channel) (c : Cause), (x.stopsIn (s.chanCfg k) c .idle) =
      { x with st := .idle, timer := none, saved := none, cause := c } := by
    intro x c
    simp only [Channel.stopsIn, h, and_false, if_false]
  unfold State.pulseEnds Channel.pulsed
  dsimp only
  rw [countPulse_self]
  dsimp only
  split
  · rw [endRun_self _ _ _ (by simp), countPulse_self, hc, hu, hst]
    rfl
  · split
    · rw [endRun_self _ _ _ (by simp), countPulse_self, hc, hu, hst]
      rfl
    · rw [setChan_self]
      rfl

/-- An entry to BLOCKED (R74). -/
theorem enterBlocked_self (s : State) (k : Chan) :
    (s.enterBlocked k).ac[k] =
      { s.ac[k].stopsIn (s.chanCfg k) .permit .blocked with blockedMark := s.windowOccupied k } := by
  unfold State.enterBlocked
  dsimp only
  rw [setChan_self, terminate_stopsIn]

/-! ### The process state and CONFLICT -/

/-- Stopping every channel changes the channels and the totals alone. -/
theorem stopChans_eq (s : State) :
    s.stopChans = { s with ac := s.stopChans.ac, tt.totals := s.stopChans.tt.totals } := by
  have h := stopChans_within s
  have ht := stopChans_table s
  rw [ByChannels] at h
  rw [ht] at h
  exact h

/-- The process state STOPPED: every channel stopped (R76, R174). -/
theorem setStopped_eq (s : State) :
    s.setStopped =
      { s with ac := s.stopChans.ac, tt.totals := s.stopChans.tt.totals, ib.process := .stopped } := by
  have h := stopChans_eq s
  unfold State.setStopped
  generalize s.stopChans = t at h
  rw [h]

/-- The entry to CONFLICT (R19, R76, R153, R184). -/
theorem enterConflict_eq (s : State) :
    s.enterConflict =
      { s with
        ac := s.stopChans.ac, tt.totals := s.stopChans.tt.totals, ib.process := .stopped
        cl.station := .conflict, cl.joinTimer := none, li.queue := []
        mb.statusTimer := none, mb.alarm := .asserted, mb.gapTimer := none } := by
  unfold State.enterConflict
  rw [setStopped_eq]

end Sys2Proof.Machine
end

