-- ==== Sys2Proof/Laws/Exec.lean ====
section
/-! SUPPORT. Every command's meaning in one form: what it does itself, and then the end of the event (Machine/Follow.lean). -/

namespace Sys2Proof.Machine

/-- What a command does itself, before the readers of the catalogue act. -/
def effect (c : Instr) (s : State) : State :=
  match c with
  | .attemptStart => onAttemptStart s
  | .lostArbitration => onLostArbitration s
  | .attemptFailed => onAttemptFailed s
  | .frameBad levels => onFrameBad levels s
  | .frameTakenUndelivered rx => onFrameTakenUndelivered rx s
  | .replyTaken rx => onReplyTaken rx s
  | .commandNotAddressed h => onCommandNotAddressed h s
  | .unknownCommand source payload => onUnknownCommand source payload s
  | .restart h => onRestart h s
  | .restartTimerExpiry => onRestartTimerExpiry s
  | .transitRead h index part => s.command h codeTransitRead (answerTransitRead index part)
  | .totalsRead h counter => s.command h codeTotalsRead (answerTotalsRead counter)
  | .totalsClear h counters => s.command h codeTotalsClear (answerTotalsClear counters)
  | .chStart h chans => s.command h codeChStart (answerChStart chans)
  | .chHalt h chans => s.command h codeChHalt (answerChHalt chans)
  | .chHaltSave h chans => s.command h codeChHaltSave (answerChHaltSave chans)
  | .chContinue h chans => s.command h codeChContinue (answerChContinue chans)
  | .chQuery h chan => s.command h codeChQuery (answerChQuery chan)
  | .loopSetpoint h loop value => s.command h codeLoopSetpoint (answerLoopSetpoint loop value)
  | .loopEnable h loops => s.command h codeLoopEnable (answerLoopEnable loops)
  | .loopDisable h loops => s.command h codeLoopDisable (answerLoopDisable loops)
  | .levelFeedReset h => s.command h codeLevelFeedReset answerLevelFeedReset
  | .alarmAck h points => s.command h codeAlarmAck (answerAlarmAck points)
  | .permitGrant h grant withdraw => s.command h codePermitGrant (changePermits grant withdraw)
  | .permitWithdraw h withdraw => s.command h codePermitWithdraw (changePermits 0 withdraw)
  | .permitQuery h test => s.command h codePermitQuery (answerPermitQuery test)
  | .resume h => s.command h codeResume answerResume
  | .entryLeadingEdge tag => onEntryLeadingEdge tag s
  | .entryTrailingEdge => onEntryTrailingEdge s
  | .longBoardTimerExpiry => onLongBoardTimerExpiry s
  | .entryTaken rx => onEntryTaken rx s
  | .sightLeadingEdge => onSightLeadingEdge s
  | .sightTrailingEdge => onSightTrailingEdge s
  | .ownSightTaken => onOwnSightTaken s
  | .peerSightLeadTaken source id position measured => onPeerSightLeadTaken source id position measured s
  | .peerSightTrailTaken source id position measured => onPeerSightTrailTaken source id position measured s
  | .encPulse => onEncPulse s
  | .speedWindowExpiry => onSpeedWindowExpiry s
  | .speedTaken rx => onSpeedTaken rx s
  | .staleTimerExpiry => onStaleTimerExpiry s
  | .sourceTimerExpiry => onSourceTimerExpiry s
  | .conflictTimerExpiry => onConflictTimerExpiry s
  | .trackingIntervalExpiry => onTrackingIntervalExpiry s
  | .delayExpiry k => onDelayExpiry k s
  | .onTimeExpiry k => onOnTimeExpiry k s
  | .offPhaseExpiry k => onOffPhaseExpiry k s
  | .haltingExpiry k => onHaltingExpiry k s
  | .chreqAssertion k => onChreqAssertion k s
  | .chendAssertion k => onChendAssertion k s
  | .generalInputChange pin level => onGeneralInputChange pin level s
  | .tcConversion raw0 raw1 => onTcConversion raw0 raw1 s
  | .zeroCrossing sinceLast => onZeroCrossing sinceLast s
  | .mainsLost => onMainsLost s
  | .controlPeriodExpiry => onControlPeriodExpiry s
  | .demandTaken rx => onDemandTaken rx s
  | .entryAgeExpiry station loop => onEntryAgeExpiry station loop s
  | .refusalTimerExpiry => onRefusalTimerExpiry s
  | .startTimerExpiry => onStartTimerExpiry s
  | .levelSample reading => onLevelSample reading s
  | .settleTimerExpiry => onSettleTimerExpiry s
  | .feedTimerExpiry => onFeedTimerExpiry s
  | .extractionTimerExpiry reading => onExtractionTimerExpiry reading s
  | .monitorTimerExpiry gain0 gain1 => onMonitorTimerExpiry gain0 gain1 s
  | .gapTimerExpiry => onGapTimerExpiry s
  | .statusTimerExpiry => onStatusTimerExpiry s
  | .stateTaken rx => onStateTaken rx s
  | .joinTaken rx => onJoinTaken rx s
  | .alarmTaken rx => onAlarmTaken rx s
  | .silenceTimerExpiry station => onSilenceTimerExpiry station s
  | .graceTimerExpiry => onGraceTimerExpiry s
  | .triggerTimerExpiry => onTriggerTimerExpiry s
  | .widthTimerExpiry => onWidthTimerExpiry s
  | .stopTaken rx => onStopTaken rx s
  | .reset cause => onReset cause s
  | .resetRelease cause straps => onResetRelease cause straps s
  | .imageReadComplete bytes => onImageReadComplete bytes s
  | .imageReadFailed cause => onImageReadFailed cause s
  | .readRetryWaitExpiry => onReadRetryWaitExpiry s
  | .joinTimerExpiry raw0 raw1 level => onJoinTimerExpiry raw0 raw1 level s
  | .firstIdleAfterReset => onFirstIdleAfterReset s
  | .requestOrEndInputRelease isEnd k => onRequestOrEndInputRelease isEnd k s

/-- The state in which a command takes effect: `s` itself, but for an expiry of the control periods that a crossing before left
due and that comes first. -/
def prior (c : Instr) (s : State) : State :=
  match c with
  | .zeroCrossing sinceLast => s.beforeCrossing sinceLast
  | .mainsLost => s.beforeMainsLost
  | _ => s

/-- The state in which a command takes effect is the state itself, or that after the expiry of the control periods. -/
theorem prior_cases (c : Instr) (s : State) : prior c s = s ∨ prior c s = finish s (effect .controlPeriodExpiry s) := by
  unfold prior State.beforeCrossing State.beforeMainsLost State.expireOverdue
  repeat' split
  all_goals first | exact Or.inl rfl | exact Or.inr rfl

/-- Every command answers a next state: its own effect, and the end of the event. -/
theorem exec_effect (c : Instr) (s : State) : exec c s = .next (finish (prior c s) (effect c (prior c s))) := by
  cases c <;> rfl

/-- A step answers a next state: that of the command at the front of the queue, or that of the time that passes. -/
theorem step_next (s : State) :
    step s =
      .next
        (match s.pending with
        | [] => idle s
        | c :: rest =>
          finish (prior c { s with pending := rest }) (effect c (prior c { s with pending := rest }))) := by
  rcases s with ⟨li, tt, ac, hl, bu, lu, xu, mb, ib, cl, pins, now, free, _ | ⟨c, rest⟩⟩
  · rfl
  · exact exec_effect _ _

/-- What every command's effect, the end of an event and the passing of time keep, every step keeps. -/
theorem step_keeps (P : State → Prop)
    (he : ∀ c s, P s → P (finish s (effect c s)))
    (hp : ∀ (s : State) (l : List Instr), P s → P { s with pending := l })
    (hi : ∀ s, P s → P (idle s)) (s s' : State) (h : P s) (hs : step s = .next s') : P s' := by
  rw [step_next] at hs
  injection hs with hs
  rw [← hs]
  split
  · exact hi s h
  · rename_i c rest _
    have h' := hp s rest h
    rcases prior_cases c { s with pending := rest } with e | e <;> rw [e]
    · exact he _ _ h'
    · exact he _ _ (he _ _ h')

end Sys2Proof.Machine
end

