-- ==== Sys2Proof/Laws/Receive.lean ====
section
/-! SUPPORT. What taking a frame does (Machine/Receive.lean): when it reaches its block, and what every frame taken can change. -/

namespace Sys2Proof.Machine

theorem State.operating_iff (s : State) : s.operating = true ↔ s.cl.station = .operating := by
  simp [State.operating]

/-- The state with the acknowledge slot driven dominant. -/
def State.slotDriven (s : State) : State := { s with li.ack := true }

/-- What the part drives in the acknowledge slot is the level that the line has there: dominant where it took the frame of another,
recessive where it sent the frame itself (R1, R187). -/
theorem ack_is_slotLevel (s : State) :
    s.slotDriven.li.ack = !slotLevel false true ∧ s.complete.li.ack = !slotLevel true true := ⟨rfl, rfl⟩

/-- A frame whose source is not the own address shows no conflict. -/
theorem takeHeard_of_other {s : State} {source : Addr} (h : s.cl.address ≠ some source) :
    s.takeHeard source = s.slotDriven.countGood source := by
  have hc : s.slotDriven.conflicts source = false := by simp [State.conflicts, State.slotDriven, h]
  show State.countGood (if s.slotDriven.conflicts source then s.slotDriven.enterConflict else s.slotDriven) source = _
  rw [hc]; rfl

/-- A frame from the own address that another station sent, taken in JOINING or OPERATING, brings CONFLICT. -/
theorem takeHeard_of_own {s : State} {source : Addr} (h : s.cl.address = some source)
    (hs : s.cl.station = .joining ∨ s.cl.station = .operating) :
    s.takeHeard source = s.slotDriven.enterConflict := by
  have hc : s.slotDriven.conflicts source = true := by
    rcases hs with hs | hs <;> simp [State.conflicts, State.slotDriven, h, hs]
  have ha : s.slotDriven.enterConflict.cl.address = some source := by
    have hw := (setStopped_within s.slotDriven).same
    simp only [State.enterConflict, hw]
    exact h
  show State.countGood (if s.slotDriven.conflicts source then s.slotDriven.enterConflict else s.slotDriven) source = _
  rw [hc, if_pos rfl, State.countGood, if_neg (by simp [ha])]

/-- Where a frame is heard from another station and does not end MUTE, taking it drives the acknowledge slot and counts it in
MUTE, and no more. -/
theorem takeHeard_of_hears {s : State} {source : Addr} (h : s.hears source = true) :
    s.takeHeard source = s.acked := by
  simp only [State.hears, Bool.and_eq_true, Bool.or_eq_true, decide_eq_true_eq] at h
  obtain ⟨⟨⟨_, hl⟩, ha⟩, _⟩ := h
  rw [takeHeard_of_other ha]
  cases hm : s.li.line with
  | active => simp [State.slotDriven, State.countGood, State.acked, hm]
  | mute =>
    have hg : s.li.good + 1 ≠ 32 := hl.resolve_left (by simp [hm])
    have hg' : s.li.good ≠ 31 := by omega
    simp [State.slotDriven, State.countGood, State.acked, hm, ha, hg']

/-- Where a frame from another station ends MUTE, taking it leaves MUTE, and the readers act on that. -/
theorem takeHeard_of_leaving {s : State} {source : Addr} (ha : s.cl.address ≠ some source) (hm : s.li.line = .mute)
    (hg : s.li.good + 1 = 32) :
    s.takeHeard source = settle 32 (State.leaveMute { s.slotDriven with li.good := 32 }) := by
  have hm' : s.slotDriven.li.line = .mute := hm
  have ha' : s.slotDriven.cl.address ≠ some source := ha
  have hg' : s.slotDriven.li.good + 1 = 32 := hg
  rw [takeHeard_of_other ha, State.countGood, if_pos ⟨hm', ha'⟩]
  simp only [hg', if_true]

theorem receiving_of_hears {s : State} {source : Addr} (h : s.hears source = true) : s.receiving = true := by
  simp only [State.hears, Bool.and_eq_true] at h
  exact h.1.1.1

theorem valid_of_hears {s : State} {source : Addr} (h : s.hears source = true) : sourceValid source = true := by
  simp only [State.hears, Bool.and_eq_true] at h
  exact h.2

/-- A frame of a kind other than COMMAND that is taken in OPERATING reaches its block. -/
theorem takeFrom_of_takes {s : State} {source : Addr} (h : s.takes source = true) (k : Kind) (act : State → State) :
    s.takeFrom k source act = act s.acked := by
  simp only [State.takes, Bool.and_eq_true] at h
  obtain ⟨h, ho⟩ := h
  have hv := valid_of_hears h
  rw [State.operating_iff] at ho
  have hd : s.acked.delivers k = true := by simp [State.delivers, State.acked, ho]
  simp [State.takeFrom, receiving_of_hears h, takeHeard_of_hears h, hd, hv]

/-- An own frame that completes in OPERATING reaches its block. -/
theorem takeOwn_of_sends {s : State} {f : Frame} (h : s.sends f = true) (ho : s.operating = true) (k : Kind)
    (hk : f.kind = k) (act : State → Addr → Frame → State) :
    s.takeOwn k act = act s.complete s.ownAddr f := by
  simp only [State.sends, decide_eq_true_eq] at h
  rw [State.operating_iff] at ho
  cases hf : s.inFlight with
  | none => rw [hf] at h; simp at h
  | some x =>
    rw [hf] at h
    simp only [Option.map_some, Option.some.injEq] at h
    have hd : s.complete.delivers k = true := by simp [State.delivers, State.complete, ho]
    simp only [State.takeOwn, hf, h, hk, hd, if_true]

/-- The handling of a command that its block acts on. -/
theorem handling_of_commanded {s : State} {h : CmdHeader} (hc : s.commanded h = true) :
    s.acked.handling h = .act (decide (h.dest ≠ broadcast)) := by
  simp only [State.commanded, State.takes, Bool.and_eq_true, Bool.or_eq_true, decide_eq_true_eq] at hc
  obtain ⟨⟨hh, ho⟩, hd⟩ := hc
  have hv := valid_of_hears hh
  have ho' : s.acked.operating = true := ho
  have hs : s.cl.station = .operating := (State.operating_iff _).1 ho
  by_cases hb : h.dest = broadcast
  · simp [State.handling, hv, hb, ho']
  · have ha : s.acked.addressed h = true := hd.resolve_left hb
    simp [State.handling, hv, hb, ha, hs]

/-- A command that its block acts on: the block's effect on the acknowledged state, and the REPLY where it is addressed. -/
theorem command_of_commanded {s : State} {h : CmdHeader} (hc : s.commanded h = true) (code : Byte)
    (act : State → Answer) :
    s.command h code act =
      (act s.acked).state.replied h code (act s.acked).result (replyData (act s.acked).result (act s.acked).data) := by
  have hr : s.receiving = true := by
    simp only [State.commanded, State.takes, Bool.and_eq_true] at hc
    exact receiving_of_hears hc.1.1
  have ht : s.takeHeard h.source = s.acked := by
    simp only [State.commanded, State.takes, Bool.and_eq_true] at hc
    exact takeHeard_of_hears hc.1.1
  by_cases hb : h.dest = broadcast
  · simp [State.command, hr, ht, handling_of_commanded hc, State.replied, hb]
  · simp [State.command, hr, ht, handling_of_commanded hc, State.replied, hb, replyFrame]

/-! ### What every frame taken keeps -/

/-- What the tests on a frame taken keep: what the acknowledgement, the entry to CONFLICT, the count toward leaving MUTE and
the leaving itself with its readers keep. -/
theorem takeHeard_keeps (P : State → Prop) (ha : ∀ s : State, P s → P s.slotDriven)
    (hc : ∀ s : State, P s → P s.enterConflict)
    (hg : ∀ s : State, P s → s.li.line = .mute → s.li.good + 1 ≠ 32 → P { s with li.good := s.li.good + 1 })
    (hl : ∀ s : State, P s → s.li.line = .mute → s.li.good + 1 = 32 →
      P (settle 32 (State.leaveMute { s with li.good := 32 })))
    (s : State) (source : Addr) (h : P s) : P (s.takeHeard source) := by
  have h1 : P s.slotDriven := ha s h
  have h2 : P (if s.slotDriven.conflicts source then s.slotDriven.enterConflict else s.slotDriven) := by
    split
    · exact hc _ h1
    · exact h1
  show P (State.countGood (if s.slotDriven.conflicts source then s.slotDriven.enterConflict else s.slotDriven) source)
  generalize (if s.slotDriven.conflicts source then s.slotDriven.enterConflict else s.slotDriven) = t at h2
  unfold State.countGood
  split
  · rename_i hm
    dsimp only
    split
    · rename_i h32
      rw [h32]
      exact hl t h2 hm.1 h32
    · rename_i h32
      exact hg t h2 hm.1 h32
  · exact h2

/-- What taking a frame from the line keeps. -/
theorem takeFrom_keeps (P : State → Prop) (s : State) (k : Kind) (source : Addr) (act : State → State) (h : P s)
    (ht : P (s.takeHeard source))
    (hact : (s.takeHeard source).delivers k = true → P (act (s.takeHeard source))) :
    P (s.takeFrom k source act) := by
  unfold State.takeFrom
  split
  · dsimp only
    split
    · rename_i hd
      simp only [Bool.and_eq_true] at hd
      exact hact hd.1
    · exact ht
  · exact h

/-- What the completion of an own frame keeps. -/
theorem takeOwn_keeps (P : State → Prop) (s : State) (k : Kind) (act : State → Addr → Frame → State) (h : P s)
    (hc : P s.complete) (hact : ∀ f, s.complete.delivers k = true → P (act s.complete s.ownAddr f)) :
    P (s.takeOwn k act) := by
  unfold State.takeOwn
  split
  · exact h
  · split
    · dsimp only
      split
      · rename_i hd
        exact hact _ hd
      · exact hc
    · exact h

/-- What a command keeps: what taking its frame keeps, what its block's effect keeps in OPERATING, and what queueing keeps. -/
theorem command_keeps (P : State → Prop) (s : State) (h : CmdHeader) (code : Byte) (act : State → Answer) (hs : P s)
    (ht : P (s.takeHeard h.source)) (hq : ∀ (t : State) (f : Frame), P t → P (t.enqueue f))
    (hact : (s.takeHeard h.source).cl.station = .operating → P (act (s.takeHeard h.source)).state) :
    P (s.command h code act) := by
  unfold State.command
  split
  · dsimp only
    split
    · rename_i reply hh
      have ho : (s.takeHeard h.source).cl.station = .operating := by
        unfold State.handling at hh
        split at hh
        · simp at hh
        · split at hh
          · split at hh
            · rename_i ho; exact (State.operating_iff _).1 ho
            · simp at hh
          · split at hh
            · split at hh
              · assumption
              · simp at hh
              · simp at hh
              · simp at hh
            · simp at hh
      split
      · exact hq _ _ (hact ho)
      · exact hact ho
    · exact hq _ _ ht
    · exact ht
  · exact hs

end Sys2Proof.Machine
end

