-- ==== Sys2Proof/Laws/ChanSets.lean ====
section
/-! SUPPORT. Commands on a set of channels (R78): each named channel is acted on by itself, and the most severe result answers. -/

namespace Sys2Proof.Machine

/-- A fold over named channels, seen through one view per channel: where an action changes the view of its own channel alone,
and its result is read from that view, each named channel's view is acted on once. -/
theorem fold_channels {V : Type} (view : Chan → State → V) (C : State → Prop) (act : State → Chan → State × ResultCode)
    (out : Chan → V → V) (res : Chan → V → ResultCode) (hC : ∀ t k, C t → C (act t k).1)
    (hself : ∀ t k, C t → view k (act t k).1 = out k (view k t))
    (hother : ∀ t k j, C t → j ≠ k → view j (act t k).1 = view j t)
    (hres : ∀ t k, C t → (act t k).2 = res k (view k t)) :
    ∀ (l : List Chan), l.Nodup → ∀ (s : State) (r : ResultCode), C s →
      let x := l.foldl (fun x k => ((act x.1 k).1, worse x.2 (act x.1 k).2)) (s, r)
      C x.1 ∧ (∀ j, view j x.1 = if j ∈ l then out j (view j s) else view j s) ∧
        x.2 = l.foldl (fun r k => worse r (res k (view k s))) r
  | [], _, s, r, hs => ⟨hs, fun _ => rfl, rfl⟩
  | k :: l, hn, s, r, hs => by
    obtain ⟨hk, hl⟩ := List.nodup_cons.1 hn
    have ih := fold_channels view C act out res hC hself hother hres l hl (act s k).1 (worse r (act s k).2) (hC s k hs)
    obtain ⟨h1, h2, h3⟩ := ih
    refine ⟨h1, fun j => ?_, ?_⟩
    · rw [List.foldl_cons, h2 j]
      by_cases hj : j = k
      · subst hj
        simp only [hk, if_false, List.mem_cons, true_or, if_true, hself s j hs]
      · simp only [List.mem_cons, hj, false_or, hother s k j hs hj]
    · rw [List.foldl_cons, h3, List.foldl_cons, hres s k hs]
      have : ∀ (m : List Chan) (q : ResultCode), (∀ x ∈ m, x ≠ k) →
          m.foldl (fun r x => worse r (res x (view x (act s k).1))) q = m.foldl (fun r x => worse r (res x (view x s))) q := by
        intro m
        induction m with
        | nil => intro q _; rfl
        | cons x m ih =>
          intro q hm
          rw [List.foldl_cons, List.foldl_cons, hother s k x hs (hm x (by simp))]
          exact ih _ fun y hy => hm y (by simp [hy])
      exact this l _ fun x hx => by rintro rfl; exact hk hx

/-- The channels that a set names. -/
theorem mem_chansOf (set : BitVec 8) (k : Chan) : k ∈ chansOf set ↔ set.getLsbD k.val = true := by
  have h : k ∈ ([0, 1, 2, 3] : List Chan) := by revert k; decide
  simp only [chansOf, List.mem_filter, h, true_and]

theorem chansOf_nodup (set : BitVec 8) : (chansOf set).Nodup := List.Nodup.filter _ (by decide)

theorem worse_code (a b : ResultCode) : (worse a b).code = max a.code b.code := by
  cases a <;> cases b <;> rfl

theorem worse_eq (a b : ResultCode) : worse a b = a ∨ worse a b = b := by
  unfold worse; split
  · exact Or.inr rfl
  · exact Or.inl rfl

/-- The fold of results answers the most severe. -/
theorem foldl_worse (res : Chan → ResultCode) : ∀ (l : List Chan) (q : ResultCode),
    let r := l.foldl (fun r k => worse r (res k)) q
    q.code ≤ r.code ∧ (∀ k ∈ l, (res k).code ≤ r.code) ∧ (r = q ∨ ∃ k ∈ l, res k = r)
  | [], q => ⟨Nat.le_refl _, fun _ h => by simp at h, Or.inl rfl⟩
  | k :: l, q => by
    obtain ⟨h1, h2, h3⟩ := foldl_worse res l (worse q (res k))
    rw [worse_code] at h1
    refine ⟨by rw [List.foldl_cons]; omega, ?_, ?_⟩
    · intro j hj
      rw [List.foldl_cons]
      rcases List.mem_cons.1 hj with rfl | hj
      · omega
      · exact h2 j hj
    · rw [List.foldl_cons]
      rcases h3 with h3 | ⟨j, hj, h3⟩
      · rcases worse_eq q (res k) with h | h
        · exact Or.inl (h3.trans h)
        · exact Or.inr ⟨k, by simp, (h3.trans h).symm⟩
      · exact Or.inr ⟨j, by simp [hj], h3⟩

theorem isWorst_fold (set : BitVec 8) (res : Chan → ResultCode) :
    IsWorst set res ((chansOf set).foldl (fun r k => worse r (res k)) .done) := by
  obtain ⟨_, h2, h3⟩ := foldl_worse res (chansOf set) .done
  refine ⟨fun k hk => h2 k ((mem_chansOf set k).2 hk), ?_⟩
  rcases h3 with h3 | ⟨k, hk, h3⟩
  · exact Or.inl h3
  · exact Or.inr ⟨k, (mem_chansOf set k).1 hk, h3⟩

end Sys2Proof.Machine
end

