-- ==== Sys2Proof/WellFormed.lean ====
section
/-! DEFINITION. Which commands are well formed: those whose operands the spec's event can carry. An ill-formed command
describes no event of the part; what exec does with it is said at its meaning. -/

namespace Sys2Proof

open Machine

/-- A command's destination is 1-30 or 31 (R188): never 0, which is no address (00_scope.md, Addresses and broadcast). -/
def CmdHeader.wf (h : CmdHeader) : Bool := h.dest ≠ 0

/-- The well-formedness of a command, checked operand by operand. -/
def Instr.wf : Instr → Bool
  | .frameBad levels => !frameGood levels
  | .frameTakenUndelivered (.heard _ f) => decide (f.length ≤ 8)
  | .commandNotAddressed h => decide (h.dest ≠ broadcast)
  | .unknownCommand _ p => decide (p.length ≤ 8) && malformedCommand p
  | .peerSightLeadTaken _ _ _ m => decide (m = 0)
  | .entryAgeExpiry station _ => decide (1 ≤ station ∧ station ≤ 30)
  | .silenceTimerExpiry station => decide (station ≠ 0 ∧ station ≠ 31)
  | .imageReadComplete bytes => decide (4 ≤ bytes.length ∧ bytes.length ≤ 1024)
  | .restart h => h.wf
  | .transitRead h _ _ => h.wf
  | .totalsRead h _ => h.wf
  | .totalsClear h _ => h.wf
  | .chStart h _ => h.wf
  | .chHalt h _ => h.wf
  | .chHaltSave h _ => h.wf
  | .chContinue h _ => h.wf
  | .chQuery h _ => h.wf
  | .loopSetpoint h _ _ => h.wf
  | .loopEnable h _ => h.wf
  | .loopDisable h _ => h.wf
  | .levelFeedReset h => h.wf
  | .alarmAck h _ => h.wf
  | .permitGrant h _ _ => h.wf
  | .permitWithdraw h _ => h.wf
  | .permitQuery h _ => h.wf
  | .resume h => h.wf
  | .frameTakenUndelivered .own => true
  | .attemptStart => true
  | .lostArbitration => true
  | .attemptFailed => true
  | .replyTaken _ => true
  | .restartTimerExpiry => true
  | .entryLeadingEdge _ => true
  | .entryTrailingEdge => true
  | .longBoardTimerExpiry => true
  | .entryTaken _ => true
  | .sightLeadingEdge => true
  | .sightTrailingEdge => true
  | .ownSightTaken => true
  | .peerSightTrailTaken _ _ _ _ => true
  | .encPulse => true
  | .speedWindowExpiry => true
  | .speedTaken _ => true
  | .staleTimerExpiry => true
  | .sourceTimerExpiry => true
  | .conflictTimerExpiry => true
  | .trackingIntervalExpiry => true
  | .delayExpiry _ => true
  | .onTimeExpiry _ => true
  | .offPhaseExpiry _ => true
  | .haltingExpiry _ => true
  | .chreqAssertion _ => true
  | .chendAssertion _ => true
  | .generalInputChange _ _ => true
  | .tcConversion _ _ => true
  | .zeroCrossing _ => true
  | .mainsLost => true
  | .controlPeriodExpiry => true
  | .demandTaken _ => true
  | .refusalTimerExpiry => true
  | .startTimerExpiry => true
  | .levelSample _ => true
  | .settleTimerExpiry => true
  | .feedTimerExpiry => true
  | .extractionTimerExpiry _ => true
  | .monitorTimerExpiry _ _ => true
  | .gapTimerExpiry => true
  | .statusTimerExpiry => true
  | .stateTaken _ => true
  | .joinTaken _ => true
  | .alarmTaken _ => true
  | .graceTimerExpiry => true
  | .triggerTimerExpiry => true
  | .widthTimerExpiry => true
  | .stopTaken _ => true
  | .reset _ => true
  | .resetRelease _ _ => true
  | .readRetryWaitExpiry => true
  | .imageReadFailed _ => true
  | .joinTimerExpiry _ _ _ => true
  | .firstIdleAfterReset => true
  | .requestOrEndInputRelease _ _ => true

end Sys2Proof
end

