-- ==== Sys2Proof/Laws/PerInstr.lean ====
section
/-! SUPPORT. One lemma per command: what its operands are on the line. A COMMAND that a block acts on carries exactly the operand
bytes that its code defines, its destination alone decides whether it is well formed, and from its payload it is read back
(R188, R189). -/

namespace Sys2Proof.Laws.Owner

open Sys2Proof.Machine

/-- The operand bytes of a COMMAND that a block acts on, in order (R189). -/
def operandBytes : Instr → List Byte
  | .transitRead _ index part => [index, part]
  | .totalsRead _ counter => [counter]
  | .totalsClear _ counters => [counters]
  | .chStart _ chans => [chans]
  | .chHalt _ chans => [chans]
  | .chHaltSave _ chans => [chans]
  | .chContinue _ chans => [chans]
  | .chQuery _ chan => [chan]
  | .loopSetpoint _ loop value => loop :: bytes16 value
  | .loopEnable _ loops => [loops]
  | .loopDisable _ loops => [loops]
  | .alarmAck _ points => [points]
  | .permitGrant _ grant withdraw => bytes16 grant ++ bytes16 withdraw
  | .permitWithdraw _ withdraw => bytes16 withdraw
  | .permitQuery _ test => bytes16 test
  | _ => []

/-- A command that a block acts on has the operand length of its code, its destination alone decides its well-formedness, and its
payload spells it. -/
def Statement (i : Instr) : Prop :=
  ∀ (h : CmdHeader) (code : Byte), ownerCommand i = some (h, code) →
    operandLength code = some (operandBytes i).length ∧ i.wf = h.wf ∧
      commandOf h.source (h.dest :: code :: operandBytes i) = i

/-- The two bytes of a 16-bit field spell it (R186). -/
theorem bytes16_spell (v : BitVec 16) : v.extractLsb' 8 8 ++ v.extractLsb' 0 8 = v := by
  ext i hi
  simp only [BitVec.getElem_append, BitVec.getElem_extractLsb', Nat.zero_add]
  split
  · exact (BitVec.getLsbD_eq_getElem hi).symm ▸ rfl
  · rw [show 8 + (i - 8) = i by omega, BitVec.getLsbD_eq_getElem hi]

/-- The payload of RESTART spells it. -/
theorem restart_spelt (h : CmdHeader) : commandOf h.source [h.dest, codeRestart] = .restart h := rfl

/-- A payload of an unknown code or a wrong length spells UNKNOWN_COMMAND (R15). -/
theorem malformed_spelt (source : Addr) (payload : List Byte) (h : malformedCommand payload = true) :
    commandOf source payload = .unknownCommand source payload := by
  unfold commandOf
  split
  · simp only [malformedCommand, decide_eq_true_eq] at h
    simp only [h, if_false]
  · rfl

theorem attemptStart : Statement (.attemptStart) := by rintro _ _ ⟨⟩
theorem lostArbitration : Statement (.lostArbitration) := by rintro _ _ ⟨⟩
theorem attemptFailed : Statement (.attemptFailed) := by rintro _ _ ⟨⟩
theorem frameBad (levels : List Bool) : Statement (.frameBad levels) := by rintro _ _ ⟨⟩
theorem frameTakenUndelivered (rx : Rx RawFrame) : Statement (.frameTakenUndelivered rx) := by rintro _ _ ⟨⟩
theorem replyTaken (rx : Rx Unit) : Statement (.replyTaken rx) := by rintro _ _ ⟨⟩
theorem commandNotAddressed (h : CmdHeader) : Statement (.commandNotAddressed h) := by rintro _ _ ⟨⟩
theorem unknownCommand (source : Addr) (payload : List Byte) :
    Statement (.unknownCommand source payload) := by rintro _ _ ⟨⟩
theorem restart (h : CmdHeader) : Statement (.restart h) := by rintro _ _ ⟨⟩
theorem restartTimerExpiry : Statement (.restartTimerExpiry) := by rintro _ _ ⟨⟩
theorem transitRead (h : CmdHeader) (index part : Byte) : Statement (.transitRead h index part) := by
  rintro _ _ ⟨⟩
  exact ⟨rfl, rfl, rfl⟩
theorem totalsRead (h : CmdHeader) (counter : Byte) : Statement (.totalsRead h counter) := by
  rintro _ _ ⟨⟩
  exact ⟨rfl, rfl, rfl⟩
theorem totalsClear (h : CmdHeader) (counters : BitVec 8) : Statement (.totalsClear h counters) := by
  rintro _ _ ⟨⟩
  exact ⟨rfl, rfl, rfl⟩
theorem chStart (h : CmdHeader) (chans : BitVec 8) : Statement (.chStart h chans) := by
  rintro _ _ ⟨⟩
  exact ⟨rfl, rfl, rfl⟩
theorem chHalt (h : CmdHeader) (chans : BitVec 8) : Statement (.chHalt h chans) := by
  rintro _ _ ⟨⟩
  exact ⟨rfl, rfl, rfl⟩
theorem chHaltSave (h : CmdHeader) (chans : BitVec 8) : Statement (.chHaltSave h chans) := by
  rintro _ _ ⟨⟩
  exact ⟨rfl, rfl, rfl⟩
theorem chContinue (h : CmdHeader) (chans : BitVec 8) : Statement (.chContinue h chans) := by
  rintro _ _ ⟨⟩
  exact ⟨rfl, rfl, rfl⟩
theorem chQuery (h : CmdHeader) (chan : Byte) : Statement (.chQuery h chan) := by
  rintro _ _ ⟨⟩
  exact ⟨rfl, rfl, rfl⟩
theorem loopSetpoint (h : CmdHeader) (loop : Byte) (value : BitVec 16) : Statement (.loopSetpoint h loop value) := by
  rintro _ _ ⟨⟩
  exact ⟨rfl, rfl, congrArg (Instr.loopSetpoint h loop) (bytes16_spell value)⟩
theorem loopEnable (h : CmdHeader) (loops : BitVec 8) : Statement (.loopEnable h loops) := by
  rintro _ _ ⟨⟩
  exact ⟨rfl, rfl, rfl⟩
theorem loopDisable (h : CmdHeader) (loops : BitVec 8) : Statement (.loopDisable h loops) := by
  rintro _ _ ⟨⟩
  exact ⟨rfl, rfl, rfl⟩
theorem levelFeedReset (h : CmdHeader) : Statement (.levelFeedReset h) := by
  rintro _ _ ⟨⟩
  exact ⟨rfl, rfl, rfl⟩
theorem alarmAck (h : CmdHeader) (points : BitVec 8) : Statement (.alarmAck h points) := by
  rintro _ _ ⟨⟩
  exact ⟨rfl, rfl, rfl⟩
theorem permitGrant (h : CmdHeader) (grant withdraw : BitVec 16) : Statement (.permitGrant h grant withdraw) := by
  rintro _ _ ⟨⟩
  exact ⟨rfl, rfl, congrArg₂ (Instr.permitGrant h) (bytes16_spell grant) (bytes16_spell withdraw)⟩
theorem permitWithdraw (h : CmdHeader) (withdraw : BitVec 16) : Statement (.permitWithdraw h withdraw) := by
  rintro _ _ ⟨⟩
  exact ⟨rfl, rfl, congrArg (Instr.permitWithdraw h) (bytes16_spell withdraw)⟩
theorem permitQuery (h : CmdHeader) (test : BitVec 16) : Statement (.permitQuery h test) := by
  rintro _ _ ⟨⟩
  exact ⟨rfl, rfl, congrArg (Instr.permitQuery h) (bytes16_spell test)⟩
theorem resume (h : CmdHeader) : Statement (.resume h) := by
  rintro _ _ ⟨⟩
  exact ⟨rfl, rfl, rfl⟩
theorem entryLeadingEdge (tag : BitVec 3) : Statement (.entryLeadingEdge tag) := by rintro _ _ ⟨⟩
theorem entryTrailingEdge : Statement (.entryTrailingEdge) := by rintro _ _ ⟨⟩
theorem longBoardTimerExpiry : Statement (.longBoardTimerExpiry) := by rintro _ _ ⟨⟩
theorem entryTaken (rx : Rx EntryContent) : Statement (.entryTaken rx) := by rintro _ _ ⟨⟩
theorem sightLeadingEdge : Statement (.sightLeadingEdge) := by rintro _ _ ⟨⟩
theorem sightTrailingEdge : Statement (.sightTrailingEdge) := by rintro _ _ ⟨⟩
theorem ownSightTaken : Statement (.ownSightTaken) := by rintro _ _ ⟨⟩
theorem peerSightLeadTaken (source : Addr) (id : Byte) (position : BitVec 23) (measured : BitVec 16) :
    Statement (.peerSightLeadTaken source id position measured) := by rintro _ _ ⟨⟩
theorem peerSightTrailTaken (source : Addr) (id : Byte) (position : BitVec 23) (measured : BitVec 16) :
    Statement (.peerSightTrailTaken source id position measured) := by rintro _ _ ⟨⟩
theorem encPulse : Statement (.encPulse) := by rintro _ _ ⟨⟩
theorem speedWindowExpiry : Statement (.speedWindowExpiry) := by rintro _ _ ⟨⟩
theorem speedTaken (rx : Rx (BitVec 16)) : Statement (.speedTaken rx) := by rintro _ _ ⟨⟩
theorem staleTimerExpiry : Statement (.staleTimerExpiry) := by rintro _ _ ⟨⟩
theorem sourceTimerExpiry : Statement (.sourceTimerExpiry) := by rintro _ _ ⟨⟩
theorem conflictTimerExpiry : Statement (.conflictTimerExpiry) := by rintro _ _ ⟨⟩
theorem trackingIntervalExpiry : Statement (.trackingIntervalExpiry) := by rintro _ _ ⟨⟩
theorem delayExpiry (k : Chan) : Statement (.delayExpiry k) := by rintro _ _ ⟨⟩
theorem onTimeExpiry (k : Chan) : Statement (.onTimeExpiry k) := by rintro _ _ ⟨⟩
theorem offPhaseExpiry (k : Chan) : Statement (.offPhaseExpiry k) := by rintro _ _ ⟨⟩
theorem haltingExpiry (k : Chan) : Statement (.haltingExpiry k) := by rintro _ _ ⟨⟩
theorem chreqAssertion (k : Chan) : Statement (.chreqAssertion k) := by rintro _ _ ⟨⟩
theorem chendAssertion (k : Chan) : Statement (.chendAssertion k) := by rintro _ _ ⟨⟩
theorem generalInputChange (pin : Fin 2) (level : Bool) :
    Statement (.generalInputChange pin level) := by rintro _ _ ⟨⟩
theorem tcConversion (raw0 raw1 : Fin 5001) : Statement (.tcConversion raw0 raw1) := by rintro _ _ ⟨⟩
theorem zeroCrossing (sinceLast : Nat) : Statement (.zeroCrossing sinceLast) := by rintro _ _ ⟨⟩
theorem mainsLost : Statement (.mainsLost) := by rintro _ _ ⟨⟩
theorem controlPeriodExpiry : Statement (.controlPeriodExpiry) := by rintro _ _ ⟨⟩
theorem demandTaken (rx : Rx DemandContent) : Statement (.demandTaken rx) := by rintro _ _ ⟨⟩
theorem entryAgeExpiry (station : Nat) (loop : LoopIx) :
    Statement (.entryAgeExpiry station loop) := by rintro _ _ ⟨⟩
theorem refusalTimerExpiry : Statement (.refusalTimerExpiry) := by rintro _ _ ⟨⟩
theorem startTimerExpiry : Statement (.startTimerExpiry) := by rintro _ _ ⟨⟩
theorem levelSample (reading : BitVec 10) : Statement (.levelSample reading) := by rintro _ _ ⟨⟩
theorem settleTimerExpiry : Statement (.settleTimerExpiry) := by rintro _ _ ⟨⟩
theorem feedTimerExpiry : Statement (.feedTimerExpiry) := by rintro _ _ ⟨⟩
theorem extractionTimerExpiry (reading : Nat) : Statement (.extractionTimerExpiry reading) := by rintro _ _ ⟨⟩
theorem monitorTimerExpiry (gain0 gain1 : Fin 1001) :
    Statement (.monitorTimerExpiry gain0 gain1) := by rintro _ _ ⟨⟩
theorem gapTimerExpiry : Statement (.gapTimerExpiry) := by rintro _ _ ⟨⟩
theorem statusTimerExpiry : Statement (.statusTimerExpiry) := by rintro _ _ ⟨⟩
theorem stateTaken (rx : Rx StateContent) : Statement (.stateTaken rx) := by rintro _ _ ⟨⟩
theorem joinTaken (rx : Rx JoinContent) : Statement (.joinTaken rx) := by rintro _ _ ⟨⟩
theorem alarmTaken (rx : Rx AlarmContent) : Statement (.alarmTaken rx) := by rintro _ _ ⟨⟩
theorem silenceTimerExpiry (station : Addr) : Statement (.silenceTimerExpiry station) := by rintro _ _ ⟨⟩
theorem graceTimerExpiry : Statement (.graceTimerExpiry) := by rintro _ _ ⟨⟩
theorem triggerTimerExpiry : Statement (.triggerTimerExpiry) := by rintro _ _ ⟨⟩
theorem widthTimerExpiry : Statement (.widthTimerExpiry) := by rintro _ _ ⟨⟩
theorem stopTaken (rx : Rx (BitVec 3)) : Statement (.stopTaken rx) := by rintro _ _ ⟨⟩
theorem reset (cause : HeldCause) : Statement (.reset cause) := by rintro _ _ ⟨⟩
theorem resetRelease (cause : HeldCause) (straps : BitVec 5) :
    Statement (.resetRelease cause straps) := by rintro _ _ ⟨⟩
theorem imageReadComplete (bytes : List Byte) : Statement (.imageReadComplete bytes) := by rintro _ _ ⟨⟩
theorem imageReadFailed (cause : ReadFailure) : Statement (.imageReadFailed cause) := by rintro _ _ ⟨⟩
theorem readRetryWaitExpiry : Statement (.readRetryWaitExpiry) := by rintro _ _ ⟨⟩
theorem joinTimerExpiry (raw0 raw1 : Fin 5001) (level : BitVec 10) :
    Statement (.joinTimerExpiry raw0 raw1 level) := by rintro _ _ ⟨⟩
theorem firstIdleAfterReset : Statement (.firstIdleAfterReset) := by rintro _ _ ⟨⟩
theorem requestOrEndInputRelease (isEnd : Bool) (k : Chan) :
    Statement (.requestOrEndInputRelease isEnd k) := by rintro _ _ ⟨⟩

end Sys2Proof.Laws.Owner
end

