-- ==== Sys2Proof/Laws/Queue.lean ====
section
/-! SUPPORT. What queueing a frame does to the transmit queue (R8 to R10): the queue keeps its invariant, and nothing but the
line interface, the station and the clock bears on it. -/

namespace Sys2Proof.Machine

theorem insertByRank_perm (e : QEntry) : ∀ q : List QEntry, (insertByRank e q).Perm (e :: q)
  | [] => List.Perm.refl _
  | x :: xs => by
    unfold insertByRank
    split
    · exact ((insertByRank_perm e xs).cons x).trans (List.Perm.swap e x xs)
    · exact List.Perm.refl _

theorem insertByRank_length (e : QEntry) (q : List QEntry) : (insertByRank e q).length = q.length + 1 := by
  rw [(insertByRank_perm e q).length_eq]; rfl

theorem coalesces_symm (f g : Frame) : coalesces f g = coalesces g f := by
  cases f <;> cases g <;> simp [coalesces, eq_comm]

/-- What `precedes` says, in propositions. -/
theorem precedes_iff (x e : QEntry) :
    x.precedes e = true ↔
      x.frame.rank < e.frame.rank ∨
        (x.frame.rank = e.frame.rank ∧
          (x.moment < e.moment ∨ (x.moment = e.moment ∧ frameNumber x.frame ≤ frameNumber e.frame))) := by
  simp [QEntry.precedes]

theorem precedes_trans {x y z : QEntry} (a : x.precedes y = true) (b : y.precedes z = true) : x.precedes z = true := by
  rw [precedes_iff] at *
  omega

/-- Of two entries one precedes the other. -/
theorem precedes_of_not {x y : QEntry} (h : ¬x.precedes y = true) : y.precedes x = true := by
  rw [precedes_iff] at *
  omega

/-- `precedes` looks at the frame's rank and number and at the moment alone. -/
theorem precedes_congr {x x' y y' : QEntry} (hx : x.frame.rank = x'.frame.rank ∧ frameNumber x.frame = frameNumber x'.frame)
    (hy : y.frame.rank = y'.frame.rank ∧ frameNumber y.frame = frameNumber y'.frame) (qx : x.moment = x'.moment)
    (qy : y.moment = y'.moment) : x.precedes y = x'.precedes y' := by
  unfold QEntry.precedes
  rw [hx.1, hx.2, hy.1, hy.2, qx, qy]

/-- The queue's order, and that no two entries would coalesce. -/
abbrev Ordered (q : List QEntry) : Prop :=
  q.Pairwise fun a b => a.precedes b = true ∧ coalesces a.frame b.frame = false

theorem insertByRank_ordered (e : QEntry) : ∀ q : List QEntry, Ordered q →
    (∀ x ∈ q, coalesces e.frame x.frame = false) → Ordered (insertByRank e q)
  | [], _, _ => List.pairwise_singleton _ _
  | x :: xs, h, hc => by
    obtain ⟨hx, hs⟩ := List.pairwise_cons.1 h
    have hce : coalesces x.frame e.frame = false := by rw [coalesces_symm]; exact hc x (List.mem_cons_self ..)
    unfold insertByRank
    split
    · rename_i hr
      refine List.pairwise_cons.2 ⟨fun y hy => ?_, insertByRank_ordered e xs hs fun y hy => hc y (List.mem_cons_of_mem _ hy)⟩
      rcases List.mem_cons.1 ((insertByRank_perm e xs).mem_iff.1 hy) with rfl | hy
      · exact ⟨hr, hce⟩
      · exact hx y hy
    · rename_i hr
      refine List.pairwise_cons.2 ⟨fun y hy => ⟨?_, hc y hy⟩, h⟩
      rcases List.mem_cons.1 hy with rfl | hy
      · exact precedes_of_not hr
      · exact precedes_trans (precedes_of_not hr) (hx y hy).1

/-- The place of an entry: behind those that precede it, where they stand at the front. -/
theorem insertByRank_append (e : QEntry) : ∀ a b : List QEntry, (∀ x ∈ a, x.precedes e = true) →
    (∀ x ∈ b, x.precedes e = false) → insertByRank e (a ++ b) = a ++ e :: b
  | [], [], _, _ => rfl
  | [], x :: xs, _, hb => by simp [insertByRank, hb x (List.mem_cons_self ..)]
  | x :: xs, b, ha, hb => by
    simp [insertByRank, ha x (List.mem_cons_self ..),
      insertByRank_append e xs b (fun y hy => ha y (List.mem_cons_of_mem _ hy)) hb]

theorem lose_frame (e : QEntry) : e.lose.frame = e.frame := rfl
theorem lose_attempts (e : QEntry) : e.lose.attempts = e.attempts := rfl
theorem lose_flight (e : QEntry) : e.lose.flight.isSome = e.flight.isSome := by cases h : e.flight <;> simp [QEntry.lose, h]
theorem replace_flight (e : QEntry) (f : Frame) : (e.replace f).flight.isSome = e.flight.isSome := by
  cases h : e.flight <;> simp [QEntry.replace, h]

/-- Marking STATE contents lost keeps the queue's invariant. -/
theorem queueOk_lose {q : List QEntry} (h : QueueOk q) : QueueOk (q.map QEntry.lose) := by
  obtain ⟨hl, ho, hc, ha⟩ := h
  refine ⟨by simpa using hl, ?_, ?_, ?_⟩
  · exact List.pairwise_map.2 ho
  · rw [List.countP_map]
    simpa [Function.comp_def, lose_flight] using hc
  · intro e he
    obtain ⟨x, hx, rfl⟩ := List.mem_map.1 he
    exact ha x hx

/-- An entry with no attempt in flight and no failed attempt takes its place where there is room. -/
theorem queueOk_insert {q : List QEntry} {e : QEntry} (h : QueueOk q) (hq : q.length < 16) (hf : e.flight = none)
    (ha : e.attempts ≤ 3) (hc : ∀ x ∈ q, coalesces e.frame x.frame = false) : QueueOk (insertByRank e q) := by
  obtain ⟨_, ho, hcount, hat⟩ := h
  refine ⟨by rw [insertByRank_length]; omega, insertByRank_ordered e q ho hc, ?_, ?_⟩
  · rw [(insertByRank_perm e q).countP_eq, List.countP_cons]
    simpa [hf] using hcount
  · intro x hx
    rcases List.mem_cons.1 ((insertByRank_perm e q).mem_iff.1 hx) with rfl | hx
    · exact ha
    · exact hat x hx

/-- A part of the queue keeps the invariant. -/
theorem queueOk_sublist {p q : List QEntry} (h : QueueOk q) (hs : p.Sublist q) : QueueOk p := by
  obtain ⟨hl, ho, hc, ha⟩ := h
  exact ⟨hs.length_le.trans hl, ho.sublist hs, (hs.countP_le).trans hc, fun e he => ha e (hs.subset he)⟩

theorem dropLastIdle_sublist (q : List QEntry) : (dropLastIdle q).Sublist q := by
  have h := (List.eraseP_sublist (l := q.reverse) (p := fun e => e.flight.isNone)).reverse
  simpa [dropLastIdle] using h

theorem dropLastIdle_length {q : List QEntry} {v : QEntry} (h : lastIdle q = some v) :
    (dropLastIdle q).length + 1 = q.length := by
  have hm := List.mem_of_find?_eq_some h
  have hp := List.find?_some h
  have := List.length_eraseP_of_mem (p := fun e : QEntry => e.flight.isNone) hm hp
  have hpos : 0 < q.length := by
    rw [← List.length_reverse]; exact List.length_pos_of_mem hm
  simp only [dropLastIdle, List.length_reverse] at *
  omega

/-- Placing an entry that does not coalesce keeps the queue's invariant. -/
theorem place_queueOk (s : State) (e : QEntry) (h : QueueOk s.li.queue) (hf : e.flight = none) (ha : e.attempts ≤ 3)
    (hc : ∀ x ∈ s.li.queue, coalesces e.frame x.frame = false) : QueueOk (s.place e).li.queue := by
  unfold State.place
  split
  · exact queueOk_insert h (by assumption) hf ha hc
  · split
    · exact queueOk_lose h
    · rename_i v hv
      split
      · have hs := dropLastIdle_sublist s.li.queue
        have hn := dropLastIdle_length hv
        have h16 := h.1
        refine queueOk_lose (queueOk_insert (queueOk_sublist h hs) (by omega) hf ha fun x hx => hc x (hs.subset hx))
      · exact queueOk_lose h

theorem coalesces_trans {f g h : Frame} (a : coalesces f g = true) (b : coalesces f h = true) : coalesces g h = true := by
  cases f <;> cases g <;> cases h <;> simp_all [coalesces]

theorem coalesces_rank {f g : Frame} (a : coalesces f g = true) : f.rank = g.rank := by
  cases f <;> cases g <;> simp_all [coalesces, Frame.rank, Frame.kind]

theorem coalesces_number {f g : Frame} (a : coalesces f g = true) : frameNumber f = frameNumber g := by
  cases f <;> cases g <;> simp_all [coalesces, frameNumber]

theorem coalesces_congr {f g h : Frame} (a : coalesces f g = true) : coalesces f h = coalesces g h := by
  cases f <;> cases g <;> cases h <;> simp_all [coalesces]

/-- Replacing the entry that a frame coalesces with keeps the queue's invariant: it has the frame's kind and coalesces with no
other. -/
theorem replace_queueOk (q : List QEntry) (f : Frame) (h : QueueOk q) :
    QueueOk (q.map fun e => if coalesces f e.frame then e.replace f else e) := by
  obtain ⟨hl, ho, hc, ha⟩ := h
  refine ⟨by simpa using hl, ?_, ?_, ?_⟩
  · refine List.pairwise_map.2 (ho.imp fun {a b} hab => ?_)
    obtain ⟨hr, hco⟩ := hab
    by_cases ca : coalesces f a.frame = true
    · by_cases cb : coalesces f b.frame = true
      · rw [coalesces_trans ca cb] at hco; cases hco
      · rw [if_pos ca, if_neg cb]
        exact ⟨(precedes_congr (x := a.replace f) ⟨coalesces_rank ca, coalesces_number ca⟩ ⟨rfl, rfl⟩ rfl rfl).trans hr,
          (coalesces_congr ca).trans hco⟩
    · by_cases cb : coalesces f b.frame = true
      · rw [if_neg ca, if_pos cb]
        refine ⟨(precedes_congr (y := b.replace f) ⟨rfl, rfl⟩ ⟨coalesces_rank cb, coalesces_number cb⟩ rfl rfl).trans hr, ?_⟩
        show coalesces a.frame f = false
        rw [coalesces_symm]; exact Bool.eq_false_iff.2 ca
      · rw [if_neg ca, if_neg cb]; exact ⟨hr, hco⟩
  · rw [List.countP_map]
    refine le_trans (le_of_eq (List.countP_congr fun e _ => ?_)) hc
    simp only [Function.comp_apply]
    split
    · rw [replace_flight]
    · rfl
  · intro e he
    obtain ⟨x, hx, rfl⟩ := List.mem_map.1 he
    have := ha x hx
    split
    · exact this
    · exact this

/-- Queueing a frame keeps the line interface's invariant. -/
theorem enqueueFor_lineOk (s : State) (f : Frame) (r : Bool) (h : LineOk s) : LineOk (s.enqueueFor f r) := by
  have hs := (enqueueFor_within s f r).same
  have hq : QueueOk (s.enqueueFor f r).li.queue := by
    unfold State.enqueueFor
    split
    · split
      · exact replace_queueOk _ f h.1
      · rename_i hn
        refine place_queueOk s _ h.1 rfl (Nat.zero_le _) fun x hx => ?_
        simp only [List.any_eq_true, not_exists, not_and, Bool.not_eq_true] at hn
        exact hn x hx
    · exact h.1
  refine ⟨hq, by rw [hs.2.2.2.2.2.2.2.2.2.2.2.2.2.1]; exact h.2.1, by rw [hs.2.2.2.2.2.2.2.2.2.2.2.2.2.2.1]; exact h.2.2.1, ?_⟩
  intro hm
  have hline : s.li.line = .mute := by rw [← hs.2.2.2.2.2.2.2.2.2.2.2.2.1]; exact hm
  have hna : s.accepts = false := by simp [State.accepts, hline]
  have he : s.enqueueFor f r = { s with cl.resetDue := s.cl.resetDue || r } := by simp [State.enqueueFor, hna]
  rw [he]
  exact h.2.2.2 hline

/-- Queueing a frame keeps the line interface's invariant. -/
theorem enqueue_lineOk (s : State) (f : Frame) (h : LineOk s) : LineOk (s.enqueue f) := enqueueFor_lineOk s f false h

/-- Queueing a frame and a change of the loops and the budget unit act in either order. -/
theorem enqueue_heat (s : State) (f : Frame) (hl : HeatLoops) (bu : Budget) :
    State.enqueue { s with hl := hl, bu := bu } f = { s.enqueue f with hl := hl, bu := bu } := by
  unfold State.enqueue State.enqueueFor
  have ha : State.accepts { s with hl := hl, bu := bu } = s.accepts := rfl
  rw [ha]
  split
  · split
    · rfl
    · unfold State.place
      dsimp only
      split
      · rfl
      · split
        · rfl
        · split <;> rfl
  · rfl

end Sys2Proof.Machine
end

