-- ==== Sys2Proof/Laws/Tracker.lean ====
section
/-! SUPPORT. What the searches and changes of the transit table do (chapter 2). -/

namespace Sys2Proof.Machine

/-! ### The nearest candidate -/

/-- One comparison of the search for the nearest. -/
def nearer (d : BoardRec → Nat) (best : Option (Nat × BoardRec)) (x : BoardRec × Nat) : Option (Nat × BoardRec) :=
  match best with
  | none => some (x.2, x.1)
  | some b => if d x.1 < d b.2 then some (x.2, x.1) else some b

theorem nearest_eq (candidate : BoardRec → Bool) (d : BoardRec → Nat) (table : List BoardRec) :
    nearest candidate d table = (table.zipIdx.filter fun x => candidate x.1).foldl (nearer d) none := rfl

/-- A best that none of the rest beats stays. -/
theorem foldl_nearer_stays (d : BoardRec → Nat) (b : Nat × BoardRec) :
    ∀ l : List (BoardRec × Nat), (∀ x ∈ l, d b.2 ≤ d x.1) → l.foldl (nearer d) (some b) = some b
  | [], _ => rfl
  | x :: l, h => by
    have hx := h x (by simp)
    have : nearer d (some b) x = some b := by simp [nearer, Nat.not_lt.2 hx]
    rw [List.foldl_cons, this]
    exact foldl_nearer_stays d b l fun y hy => h y (by simp [hy])

/-- A candidate that beats all before it and is beaten by none behind it is found. -/
theorem foldl_nearer_finds (d : BoardRec → Nat) (r : BoardRec) (i : Nat) (q : List (BoardRec × Nat))
    (hq : ∀ x ∈ q, d r ≤ d x.1) :
    ∀ (p : List (BoardRec × Nat)) (b : Option (Nat × BoardRec)), (∀ x ∈ p, d r < d x.1) → (∀ x ∈ b, d r < d x.2) →
      (p ++ (r, i) :: q).foldl (nearer d) b = some (i, r)
  | [], b, _, hb => by
    have : nearer d b (r, i) = some (i, r) := by
      cases b with
      | none => rfl
      | some x => simp [nearer, hb x rfl]
    rw [List.nil_append, List.foldl_cons, this]
    exact foldl_nearer_stays d (i, r) q hq
  | x :: p, b, hp, hb => by
    rw [List.cons_append, List.foldl_cons]
    refine foldl_nearer_finds d r i q hq p _ (fun y hy => hp y (by simp [hy])) ?_
    intro y hy
    have hx := hp x (by simp)
    cases b with
    | none => simp only [nearer, Option.mem_def, Option.some.injEq] at hy; subst hy; exact hx
    | some z =>
      have hz := hb z rfl
      simp only [nearer] at hy
      split at hy <;> (simp only [Option.mem_def, Option.some.injEq] at hy; subst hy; assumption)

/-- Where no record is a candidate, none is found. -/
theorem nearest_none {candidate : BoardRec → Bool} {table : List BoardRec} (h : ∀ r ∈ table, candidate r = false)
    (d : BoardRec → Nat) : nearest candidate d table = none := by
  have : (table.zipIdx.filter fun x => candidate x.1) = [] := by
    rw [List.filter_eq_nil_iff]
    intro x hx
    have hm : x.1 ∈ table := by
      obtain ⟨y, i⟩ := x
      have := List.mem_zipIdx hx
      simp only [this.2.2]
      exact List.getElem_mem _
    simp [h x.1 hm]
  rw [nearest_eq, this]
  rfl

/-- The nearest candidate, the downstream one of two equally near, is the one found. -/
theorem nearest_some {candidate : BoardRec → Bool} {d : BoardRec → Nat} {table : List BoardRec} {i : Nat} {r : BoardRec}
    (h : IsNearest table candidate d i r) : nearest candidate d table = some (i, r) := by
  obtain ⟨hi, hc, hn⟩ := h
  obtain ⟨hlt, hr⟩ := List.getElem?_eq_some_iff.1 hi
  have ht : table = table.take i ++ r :: table.drop (i + 1) := by
    rw [← hr, List.getElem_cons_drop, List.take_append_drop]
  have hz : table.zipIdx = (table.take i).zipIdx ++ (r, i) :: (table.drop (i + 1)).zipIdx (i + 1) := by
    conv_lhs => rw [ht]
    rw [List.zipIdx_append, List.zipIdx_cons]
    simp [Nat.min_eq_left (Nat.le_of_lt hlt)]
  rw [nearest_eq, hz, List.filter_append, List.filter_cons]
  simp only [hc, if_true]
  apply foldl_nearer_finds
  · intro x hx
    obtain ⟨hx, hcx⟩ := List.mem_filter.1 hx
    obtain ⟨y, j⟩ := x
    have hj := List.mem_zipIdx hx
    have := hn j y (by
      rw [ht, List.getElem?_append_right (by simp; omega)]
      simp only [List.length_take, Nat.min_eq_left (Nat.le_of_lt hlt)]
      have : j - i = (j - (i + 1)) + 1 := by omega
      rw [this, List.getElem?_cons_succ, List.getElem?_eq_getElem (by omega), ← hj.2.2]) hcx
    rcases this with h | h
    · exact Nat.le_of_lt h
    · exact Nat.le_of_eq h.1
  · intro x hx
    obtain ⟨hx, hcx⟩ := List.mem_filter.1 hx
    obtain ⟨y, j⟩ := x
    have hj := List.mem_zipIdx hx
    simp only [Nat.zero_add, List.length_take, Nat.sub_zero] at hj
    have := hn j y (by
      rw [ht, List.getElem?_append_left (by simp; omega), List.getElem?_eq_getElem (by simp; omega), ← hj.2.2]) hcx
    rcases this with h | h
    · exact h
    · omega
  · intro x hx; simp at hx

/-! ### Corrections -/

/-- A correction reads its other changes at the record corrected alone. -/
theorem correct_congr {s : State} {i lead : Nat} {r : BoardRec} {f g : BoardRec → BoardRec}
    (hr : s.tt.table[i]? = some r) (h : f r = g r) : s.correct i lead f = s.correct i lead g := by
  have : ∀ (l : List BoardRec) (j x : Nat), l[j]? = some r →
      l.modify j (fun r => { f r with lead := x }) = l.modify j (fun r => { g r with lead := x }) := by
    intro l
    induction l with
    | nil => intro j x hj; simp at hj
    | cons y l ih =>
      intro j x hj
      cases j with
      | zero =>
        simp only [List.getElem?_cons_zero, Option.some.injEq] at hj
        subst hj
        simp only [List.modify_zero_cons, h]
      | succ j =>
        simp only [List.getElem?_cons_succ] at hj
        simp only [List.modify_succ_cons, ih j x hj]
  simp only [State.correct]
  rw [this _ _ _ hr]

/-- The record of an id is found at its place. -/
theorem findId_split {id : Byte} {a b : List BoardRec} {r : BoardRec} (h : r.id = id) (ha : ∀ x ∈ a, x.id ≠ id) :
    findId id (a ++ r :: b) = some (a.length, r) := by
  have : ((a ++ r :: b).zipIdx.find? fun x => decide (x.1.id = id)) = some (r, a.length) := by
    rw [List.zipIdx_append, List.find?_append, List.zipIdx_cons, Nat.zero_add]
    have hn : (a.zipIdx.find? fun x => decide (x.1.id = id)) = none := by
      rw [List.find?_eq_none]
      intro x hx
      obtain ⟨y, j⟩ := x
      have hj := List.mem_zipIdx hx
      have hm : y ∈ a := by simp only [hj.2.2]; exact List.getElem_mem _
      simp [ha y hm]
    simp [hn, h]
  simp only [findId, this, Option.map_some]

/-- The record of an id that no record holds is not found. -/
theorem findId_none {id : Byte} {l : List BoardRec} (h : ∀ x ∈ l, x.id ≠ id) : findId id l = none := by
  have : (l.zipIdx.find? fun x => decide (x.1.id = id)) = none := by
    rw [List.find?_eq_none]
    intro x hx
    obtain ⟨y, j⟩ := x
    have hj := List.mem_zipIdx hx
    have hm : y ∈ l := by simp only [hj.2.2]; exact List.getElem_mem _
    simp [h y hm]
  simp only [findId, this, Option.map_none]

end Sys2Proof.Machine
end

