-- ==== Sys2Proof/Tests/Slice0.lean ====
section
/-! SUPPORT. Tests: ill-formed commands refused, steps on small states, and for each obligation with hypotheses a state and
operands that meet them, clause by clause. -/

namespace Sys2Proof.Tests

open Sys2Proof Sys2Proof.Machine

set_option maxRecDepth 20000

/-! ### Ill-formed commands -/

theorem test_wf_goodFrame : (Instr.frameBad (sentLevels 6 3 [])).wf = false := by decide
theorem test_wf_badFrame : (Instr.frameBad [false]).wf = true := by decide
theorem test_wf_longFrame : (Instr.frameTakenUndelivered (.heard 3 ⟨1, 9⟩)).wf = false := by decide
theorem test_wf_notAddressed : (Instr.commandNotAddressed ⟨3, 31⟩).wf = false := by decide
theorem test_wf_longPayload : (Instr.unknownCommand 3 [5, 0xff, 0, 0, 0, 0, 0, 0, 0]).wf = false := by decide
theorem test_wf_knownCommand : (Instr.unknownCommand 3 [5, 0x11, 0]).wf = false := by decide
theorem test_wf_leadMeasured : (Instr.peerSightLeadTaken 3 1 0 1).wf = false := by decide
theorem test_wf_noStation : (Instr.entryAgeExpiry 0 0).wf = false ∧ (Instr.entryAgeExpiry 31 0).wf = false := by decide
theorem test_wf_silence : (Instr.silenceTimerExpiry 0).wf = false ∧ (Instr.silenceTimerExpiry 31).wf = false := by decide
theorem test_wf_shortImage : (Instr.imageReadComplete [1, 2, 3]).wf = false := by decide
theorem test_wf_longImage : (Instr.imageReadComplete (List.replicate 1025 0)).wf = false := by decide
theorem test_wf_destination :
    (([.restart, fun h => .transitRead h 0 0, fun h => .totalsRead h 0, fun h => .totalsClear h 0, fun h => .chStart h 0,
      fun h => .chHalt h 0, fun h => .chHaltSave h 0, fun h => .chContinue h 0, fun h => .chQuery h 0,
      fun h => .loopSetpoint h 0 0, fun h => .loopEnable h 0, fun h => .loopDisable h 0, .levelFeedReset,
      fun h => .alarmAck h 0, fun h => .permitGrant h 0 0, fun h => .permitWithdraw h 0, fun h => .permitQuery h 0,
      .resume] : List (CmdHeader → Instr)).all fun c => !(c ⟨3, 0⟩).wf && (c ⟨3, 31⟩).wf) = true := by decide

/-! ### Small states -/

/-- A channel that sprays for 5 ms every 20 ms while a board lies in its window. -/
def sprayCfg : ChanCfg :=
  { ChanCfg.blank with
    mode := .board, onTime := 5, period := 20, completePulse := true, permit := ⟨.constant true, false⟩, nozzle := 400000
    leadMargin := 1000, trailMargin := 1000 }

/-- Items that put every block to use: AC0 a spray, AC1 a steady pump, AC2 started by its input, AC3 the owned feeder. -/
def items : Image :=
  { Image.blank with
    station :=
      { Image.blank.station with
        speedSource := true, sensor := true, encoderScale := 25, sensorPosition := 500000, captureWindow := 50
        forgetPosition := 7000000, budget := 1000, safeGrant := 300 }
    chans :=
      #v[sprayCfg, { sprayCfg with mode := .free, onTime := 0 },
        { sprayCfg with mode := .input, onTime := 5, period := 0 },
        { sprayCfg with mode := .free, levelOwned := true, onTime := 4 }]
    loops :=
      #v[{ LoopCfg.blank with
            inUse := true, spMin := 100, spMax := 4000, defaultSp := 2500, kp := 40, ki := 10, rated := 800
            permit := ⟨.constant true, false⟩ },
        { LoopCfg.blank with inUse := true, ganged := true, rated := 600, spMax := 10, permit := ⟨.constant true, false⟩ }]
    level := { Image.blank.level with inUse := true, wave := some 1, settle := 5, feedOn := -20, feedOff := 10, maxFeed := 60 }
    extraction := { Image.blank.extraction with inUse := true, base := 300, boost := 150, rampStep := 50 }
    stop := { Image.blank.stop with s0 := ⟨true, ⟨.chreq 0, false⟩⟩, triggerTime := 5, stopWidth := 3 } }

/-- A station of address 8 in OPERATING and RUN, no timer running. -/
def station : State :=
  { State.reset with
    cl := { Loader.reset with station := .operating, address := some 8, image := items, started := true }
    li := { LineInterface.reset with filter := some 8, synced := true }
    ib := { Interlock.reset with process := .run } }

/-- Another station's command to station 8, and to all. -/
def toUs : CmdHeader := ⟨30, 8⟩
def toAll : CmdHeader := ⟨30, 31⟩

/-- A queued frame, in flight or not. -/
def queued (f : Frame) (inFlight : Bool) (attempts : Nat) : QEntry :=
  { frame := f, mark := false, attempts := attempts, queuedAt := 0, moment := 0
    flight := if inFlight then some ⟨f, false, false⟩ else none, restart := false }

/-- The station with one frame in flight. -/
def sending (f : Frame) : State := { station with li.queue := [queued f true 0] }

/-- The station with a table. -/
def tracking (l : List BoardRec) : State := { station with tt.table := l }

/-- The station with one channel in a state. -/
def inState (k : Chan) (x : Channel) : State := { station with ac := station.ac.set k x }

/-- A board of 100 mm. -/
def board (id : Byte) (lead : Nat) : BoardRec := freshRec id 100 0 lead .entry false

/-- The state after a command. -/
def after (c : Instr) (s : State) : State :=
  match exec c s with
  | .next t => t
  | .fault _ => s
  | .refused _ => s

/-! ### Steps -/

theorem test_release : (after (.resetRelease .power 5) State.reset).cl.address = some 5 := by decide
theorem test_badStraps : (after (.resetRelease .power 31) State.reset).cl.fault = .addressBad := by decide
theorem test_start : (after (.chStart toUs 2) station).ac[(1 : Chan)].st = .on := by decide
theorem test_startReply :
    (after (.chStart toUs 2) station).li.queue.map (·.frame) = [.reply ⟨30, 0x20, .done, []⟩] := by decide
theorem test_owned :
    (after (.chStart toUs 8) station).li.queue.map (·.frame) = [.reply ⟨30, 0x20, .owned, []⟩] := by decide
theorem test_grant : (after (.permitGrant toUs 0x8001 0) station).ib.permits = 0x8001#16 := by decide
theorem test_spray : (after (.entryTaken (.heard 3 ⟨7, 100, 2⟩)) station).tt.table.map (·.lead) = [100000] := by decide
theorem test_window :
    (after .trackingIntervalExpiry
      { tracking [board 7 399500] with
        tt.interval := some 0, tt.speed := 600, ac := station.ac.set (0 : Chan) { Channel.reset with st := .armed } }).ac[
      (0 : Chan)].st = .on := by decide +kernel
theorem test_conflict : (after (.replyTaken (.heard 8 ())) station).cl.station = .conflict := by decide
theorem test_stop : (after (.stopTaken (.heard 3 1)) station).ib.process = .stopped := by decide
theorem test_resume : (after (.resume toUs) { station with ib.process := .stopped }).ib.process = .run := by decide
theorem test_trigger :
    let s := { station with ib.stopUnit := .timing, pins.chreq := station.pins.chreq.set 0 true }
    (after .triggerTimerExpiry s).ib.stopOut = .pulse := by decide +kernel
/-- A loop's own event, TC_OPEN with its clearing of L, is read together: no latch of TC_OPEN and L is set (R168). -/
theorem test_latchReadsTogether :
    let loop := { station.hl.loops[(0 : LoopIx)] with enabled := true, openCnt := 2, l := true }
    let latch : CellCfg :=
      { CellCfg.blank with inUse := true, fn := .latch, a := ⟨.tcOpen 0, false⟩, c := ⟨.flag .l 0, false⟩ }
    let s := { station with
      hl.tcTimer := some 0, hl.begun := true, hl.loops := station.hl.loops.set 0 loop
      cl.image.cells := items.cells.set 0 latch }
    (after (.tcConversion 5000 100) s).hl.loops[(0 : LoopIx)].tcOpen = true ∧
      (after (.tcConversion 5000 100) s).ib.cells[(0 : Ix8)].out = false := by decide +kernel
/-- The stop condition is read where the cells are at rest: a run that ends takes the cell on it with it (R170). -/
theorem test_stopReadsAtRest :
    let s := { inState 1 { Channel.reset with st := .on } with
      ib.permits := 1, ib.cells := station.ib.cells.set 0 ⟨true, false⟩
      cl.image.chans := items.chans.set 1 { sprayCfg with mode := .free, onTime := 0, permit := ⟨.permit 0, false⟩ }
      cl.image.cells := items.cells.set 0
        { CellCfg.blank with inUse := true, fn := .or, a := ⟨.running 1, false⟩ }
      cl.image.stop :=
        { Image.blank.stop with s0 := ⟨true, ⟨.running 1, true⟩⟩, s1 := ⟨true, ⟨.cell 0, false⟩⟩ } }
    (after (.permitWithdraw toUs 1) s).ac[(1 : Chan)].st = .blocked ∧
      (after (.permitWithdraw toUs 1) s).ib.process = .run := by decide +kernel
/-- A RESUME that ends MUTE finds the cells on LINE_MUTE formed anew: the condition is false before and after (R175). -/
theorem test_resumeEndsMute :
    let s := { station with
      li.line := .mute, li.good := 31, ib.process := .stopped, ib.cells := station.ib.cells.set 0 ⟨true, false⟩
      cl.image.cells := items.cells.set 0 { CellCfg.blank with inUse := true, fn := .or, a := ⟨.lineMute, false⟩ }
      cl.image.stop :=
        { items.stop with s0 := ⟨true, ⟨.lineMute, true⟩⟩, s1 := ⟨true, ⟨.cell 0, false⟩⟩ } }
    s.stopCondition = false ∧ (after (.resume toUs) s).ib.process = .run ∧
      (after (.resume toUs) s).li.queue.map (·.frame.kind) = [.reply, .join] := by decide +kernel
/-- ALARMs of several events of one moment stand by point, those of a later moment behind them (R8). -/
theorem test_alarmOrder :
    let alarm := fun (i : Ix8) (s : State) => s.enqueue (.alarm ⟨i, true, false⟩)
    let later := State.momentEnds
    let queue := (alarm 0 (later (alarm 1 (alarm 5 (alarm 3 (station.enqueue (.entry ⟨7, 100, 2⟩))))))).li.queue
    queue.map (·.frame) =
      [.alarm ⟨1, true, false⟩, .alarm ⟨3, true, false⟩, .alarm ⟨5, true, false⟩, .alarm ⟨0, true, false⟩,
        .entry ⟨7, 100, 2⟩] ∧ QueueOk queue := by decide
/-- ALARMs of two frames taken in turn stand oldest first (R8). -/
theorem test_acksInTurn :
    let cleared : Point := ⟨.clearedUnacked, 0, false⟩
    let s := { station with mb.points := (station.mb.points.set 5 cleared).set 2 cleared }
    (after (.alarmAck toUs 0x04) (after (.alarmAck toUs 0x20) s)).li.queue.filterMap (fun e =>
        match e.frame with
        | .alarm c => some c.point
        | _ => none) = [5, 2] := by decide +kernel
/-- Expiries that fall due in one ms are of one moment; an event between them, or a ms, parts them (log 27). -/
theorem test_moments :
    let first := idle { station with lu.feedTimer := some 0 }
    let done := after .feedTimerExpiry { first with pending := [] }
    let second := fun (s : State) => (idle { s with ib.triggerTimer := some 0 }).now.moment
    second done = first.now.moment ∧ second (after .sightTrailingEdge done) ≠ first.now.moment ∧
      second done.tick ≠ first.now.moment := by decide +kernel
theorem test_slot : sentFrame 6 3 [] = sentLevels 6 3 [] ++ List.replicate 12 true ∧ slotLevel false true = false := by
  decide
theorem test_payload : commandOf 30 [8, 0x60, 0x80, 0x01, 0, 0] = .permitGrant toUs 0x8001 0 := by decide
theorem test_levels : levelsRow station (sentLevels 0 3 [5]) = .stopTaken (.heard 3 5) := by decide
theorem test_sight : contentRow 2 3 [7, 0x80, 0, 9, 1, 2] = .peerSightTrailTaken 3 7 9 0x0102 := by decide
theorem test_frame : receive (sentLevels 7 8 [8, 0, 1, 2, 3]) = some ⟨7, 8, [8, 0, 1, 2, 3]⟩ := by decide
theorem test_pot : rawOutput (proportional 40 120) 31200 150 = 942 := by decide
theorem test_share :
    sharedGrant 2000 { s0 := 1353, s1 := 2000, own0 := none, own1 := none, safe := false } ⟨1, 900⟩ = 291 := by decide

/-! ### Hypotheses met: the line -/

theorem witness_TimePassesAndEventsEnd :
    let runs := inState 1 { Channel.reset with st := .on }
    station.pending = [] ∧ dueList station = [] ∧ dueList { station with tt.staleTimer := some 0 } ≠ [] ∧
      station.cl.resetDue = false ∧ { station with cl.resetDue := true }.cl.resetDue = true ∧
      readable station = readable { station with cl.resetDue := true } ∧
      readable station ≠ readable { station with hl.mainsLost := true } ∧
      station.cl.image.level.inUse = true ∧ Image.blank.level.inUse = false ∧ Image.blank.level.wave = none ∧
      runs.active = true ∧ State.reset.active = false ∧ runs.cl.image.level.wave = some 1 ∧ runs.ac[(1 : Chan)].st = .on ∧
      runs.lu.wave = false ∧ { runs with lu.wave := true }.lu.wave = true := by decide

theorem witness_settled :
    (settle 32 { station with hl.mainsLost := true }).cl.resetDue = false ∧
      readable station.round = readable station ∧ readable station.round.stopFollows = readable station.round := by
  decide +kernel

theorem witness_settles :
    let lost := inState 1 { Channel.reset with st := .on }
    let s := { lost with cl.image.chans := items.chans.set 1 { sprayCfg with permit := ⟨.permit 0, false⟩ } }
    let met := { station with
      pins.chreq := station.pins.chreq.set 0 true, ac := station.ac.set (2 : Chan) { Channel.reset with st := .armed }
      cl.image.stop.triggerTime := 0 }
    readable s.round ≠ readable s ∧ readable met.round = readable met ∧
      readable met.round.stopFollows ≠ readable met.round := by decide +kernel

/-- A reset that falls due among readers that act: a REPLY of a restart, evicted by the STOP of a trigger. -/
theorem witness_resetWhileSettling :
    let full := List.replicate 16 { queued (.reply ⟨30, 1, .done, []⟩) false 0 with restart := true }
    let met := { station with
      pins.chreq := station.pins.chreq.set 0 true, li.queue := full, cl.image.stop.triggerTime := 0 }
    readable { station with li.queue := full } ≠ readable met ∧ (settle 32 met).cl.resetDue = true := by decide +kernel

/-- The straps that a RESTART samples are one or the other (log 7). -/
theorem witness_straps (s : State) :
    let straps := Config.freeStraps s.free
    (straps ≠ 0 ∧ straps ≠ 31) ∨ straps = 0 ∨ straps = 31 := by
  intro straps
  by_cases h : straps = 0
  · exact Or.inr (Or.inl h)
  · by_cases g : straps = 31
    · exact Or.inr (Or.inr g)
    · exact Or.inl ⟨h, g⟩

theorem witness_AttemptsStartAndEnd :
    station.receiving = true ∧ station.li.line = .active ∧ station.cl.station = .operating ∧
      (sending (.stop 1)).li.queue = [] ++ queued (.stop 1) true 0 :: [] ∧ (queued (.stop 1) true 0).flight.isSome = true ∧
      (queued (.stop 1) false 0).flight = none ∧ (queued (.stop 1) true 2).attempts + 1 < 4 ∧
      4 ≤ (queued (.stop 1) true 3).attempts + 1 ∧ station.li.discards + 1 < 4 := by decide

theorem witness_FramesWithoutABlockAreTaken :
    station.receiving = true ∧ receive [] = none ∧ station.held = false ∧ station.li.line = .active ∧
      station.cl.address ≠ some 3 ∧ station.addressed ⟨3, 9⟩ = false ∧ payloadLength 0 ≠ some 2 ∧
      { station with cl.station := .unconfigured }.cl.station ≠ .joining ∧
      { station with cl.station := .unconfigured }.receiving = true ∧
      { station with cl.station := .joining }.receiving = true ∧ { station with cl.station := .loading }.receiving = true ∧
      payloadLength 0 = some 1 ∧ station.cl.address ≠ some 31 := by decide

theorem witness_OwnFrameCompletes :
    (sending (.join station.joinContent)).li.queue = [queued (.join station.joinContent) true 0] ∧
      (Frame.reply ⟨30, 1, .done, []⟩).kind = .reply ∧ (Frame.stop 0).kind ≠ .reply ∧
      { station with cl.station := .joining }.cl.station ≠ .operating ∧ (Frame.stop 0).kind ≠ .state ∧
      (Frame.stop 0).kind ≠ .join := by decide

/-- One frame of every row that takes one from the line, from a source. -/
def heardRows (source : Addr) : List Instr :=
  [.frameTakenUndelivered (.heard source ⟨12, 0⟩), .replyTaken (.heard source ()), .commandNotAddressed ⟨source, 9⟩,
    .unknownCommand source [8, 0xff], .restart ⟨source, 8⟩, .transitRead ⟨source, 8⟩ 0 0, .totalsRead ⟨source, 8⟩ 0,
    .totalsClear ⟨source, 8⟩ 0, .chStart ⟨source, 8⟩ 1, .chHalt ⟨source, 8⟩ 1, .chHaltSave ⟨source, 8⟩ 1,
    .chContinue ⟨source, 8⟩ 1, .chQuery ⟨source, 8⟩ 0, .loopSetpoint ⟨source, 8⟩ 0 0, .loopEnable ⟨source, 8⟩ 1,
    .loopDisable ⟨source, 8⟩ 1, .levelFeedReset ⟨source, 8⟩, .alarmAck ⟨source, 8⟩ 1, .permitGrant ⟨source, 8⟩ 1 0,
    .permitWithdraw ⟨source, 8⟩ 1, .permitQuery ⟨source, 8⟩ 1, .resume ⟨source, 8⟩, .entryTaken (.heard source ⟨7, 100, 2⟩),
    .peerSightLeadTaken source 7 0 0, .peerSightTrailTaken source 7 0 100, .speedTaken (.heard source 5),
    .demandTaken (.heard source ⟨3, 0, 1, 5⟩), .stateTaken (.heard source station.stateContent),
    .joinTaken (.heard source station.joinContent), .alarmTaken (.heard source ⟨1, true, false⟩),
    .stopTaken (.heard source 1)]

theorem witness_MuteIsLeft :
    let muted := { station with li.line := .mute, li.good := 31 }
    (∀ c ∈ heardRows 3, muted.heardFrom c = some 3) ∧ muted.receiving = true ∧ muted.li.line = .mute ∧
      muted.cl.address ≠ some 3 ∧ muted.li.good + 1 = 32 ∧
      { station with li.line := .mute, li.good := 30 }.li.good + 1 ≠ 32 ∧
      reachesNoBlock (.replyTaken (.heard 3 ())) = true := by decide

theorem witness_ConflictIsDetected :
    (∀ c ∈ heardRows 8, station.heardFrom c = some 8) ∧ station.receiving = true ∧ station.cl.address = some 8 ∧
      station.cl.station = .operating ∧ { station with cl.station := .joining }.cl.station = .joining ∧
      (sourceValid 8 && decide ((8 : Byte) ≠ broadcast) && station.addressed ⟨8, 8⟩ && !station.cl.restartPending) = true ∧
      decide (broadcast ≠ broadcast) = false := by decide

theorem witness_QueueAcceptsOrCoalesces :
    station.accepts = true ∧ coalesces (.state station.stateContent) (.state station.stateContent) = true ∧
      coalesces (.state station.stateContent) (.stop 0) = false ∧
      { station with li.line := .mute }.li.line = .mute ∧
      coalesces (.demand ⟨8, 1, 0, 5⟩) (.demand ⟨8, 1, 0, 9⟩) = true ∧
      coalesces (.demand ⟨8, 1, 0, 5⟩) (.demand ⟨8, 0, 0, 5⟩) = false := by decide

theorem witness_QueuePlacesOrEvicts :
    let full := List.replicate 16 (queued (.reply ⟨30, 1, .done, []⟩) false 0)
    16 ≤ full.length ∧ (List.replicate 15 (queued (.stop 0) false 0)).length < 16 ∧
      coalesces (.stop 0) (.reply ⟨30, 1, .done, []⟩) = false ∧
      (Frame.stop 0).rank < (Frame.reply ⟨30, 1, .done, []⟩).rank ∧
      (Frame.reply ⟨30, 1, .done, []⟩).rank ≤ (Frame.join station.joinContent).rank := by decide

/-- One queue for each bound of the order: an ALARM of the same point and moment stands before, one of a higher point behind; an
older one before whatever its point (R8). -/
theorem witness_QueuePlacesByNumber :
    let alarm : Ix8 → Frame := fun i => .alarm ⟨i, true, false⟩
    let s := { station with now.moment := 5 }
    let at5 := fun (i : Ix8) => { queued (alarm i) false 0 with queuedAt := 0, moment := 5 }
    let t := { s with li.queue := [queued (alarm 7) false 0, at5 2, at5 3] }
    s.accepts = true ∧ (∀ e ∈ t.li.queue, coalesces (alarm 2) e.frame = false) ∧
      (t.enqueue (alarm 2)).li.queue = [queued (alarm 7) false 0, at5 2] ++ at5 2 :: [at5 3] := by decide

theorem witness_CommandsAreTurnedAway :
    let joining := { station with cl.station := .joining }
    joining.hears 30 = true ∧ operandLength 0xff ≠ some 0 ∧ joining.addressed toUs = true ∧
      joining.addressed toAll = false ∧ ownerCommand (.resume toUs) = some (toUs, codeResume) ∧
      toUs.dest ≠ broadcast ∧ toAll.dest = broadcast ∧ joining.cl.station ≠ .operating := by decide

/-! ### Hypotheses met: the tracker -/

theorem witness_commanded :
    station.commanded toUs = true ∧ station.commanded toAll = true ∧
      { station with li.line := .mute }.commanded toUs = true := by decide

theorem witness_ReadsAnswerAndChangeNothing :
    (tracking [board 7 5]).commanded toUs = true ∧ (tracking [board 7 5]).tt.table[(0 : Byte).toNat]? = some (board 7 5) ∧
      (tracking []).tt.table[(23 : Byte).toNat]? = none ∧ (23 : Byte).toNat < 24 ∧ 24 ≤ (24 : Byte).toNat ∧
      2 ≤ (2 : Byte).toNat ∧ 5 ≤ (5 : Byte).toNat ∧ 4 ≤ (4 : Byte).toNat := by decide

theorem witness_TotalsClearClears : (0x1f#8 : BitVec 8) &&& 0xe0#8 = 0 ∧ (0x20#8 : BitVec 8) &&& 0xe0#8 ≠ 0 := by decide

theorem witness_EntryIsMeasured :
    let entry := { station with cl.image.station.entrySource := true }
    entry.active = true ∧ entry.entrySource = true ∧ entry.pins.bsens = false ∧
      { entry with pins.bsens := true, tt.entryActive := true }.tt.entryActive = true ∧ 9999 / 1000 < 10 ∧
      10 ≤ 10000 / 1000 ∧ 650999 / 1000 ≤ 650 ∧ 650 < 651000 / 1000 ∧ State.reset.active = false := by decide

theorem witness_TimersExpire :
    { station with tt.longTimer := some 0, tt.staleTimer := some 0 }.tt.staleTimer.isSome = true ∧
      { station with tt.sourceTimer := some 0 }.tt.sourceTimer.isSome = true ∧
      { station with tt.conflictTimer := some 0 }.tt.conflictTimer.isSome = true ∧
      { station with bu.refusalTimer := some 0 }.bu.refusalTimer.isSome = true ∧
      { station with bu.startTimer := some 0 }.bu.startTimer.isSome = true ∧
      { station with lu.settleTimer := some 0 }.lu.settleTimer.isSome = true ∧
      { station with lu.feedTimer := some 0 }.lu.feedTimer.isSome = true ∧
      { station with mb.graceTimer := some 0 }.mb.graceTimer.isSome = true := by decide

theorem witness_EntryCreatesRecord :
    station.takes 3 = true ∧ (sending (.entry ⟨7, 10, 7⟩)).sends (.entry ⟨7, 10, 7⟩) = true ∧
      (sending (.entry ⟨7, 10, 7⟩)).operating = true ∧ 10 ≤ (10#16).toNat ∧ (650#16).toNat ≤ 650 ∧ (9#16).toNat < 10 ∧
      650 < (651#16).toNat ∧ board 7 5 ∈ (tracking [board 7 5]).tt.table ∧ (board 7 5).id = 7 := by decide

theorem witness_RecordsKeepTheirOrder :
    let s := tracking [board 1 200000, board 2 150000, board 3 100000]
    s.tt.table = [board 1 200000] ++ [board 2 150000] ++ [board 3 100000] ∧ (150000 : Nat) < (board 1 200000).lead ∧
      (board 2 150000).lead + 0 = 150000 ∧ (board 3 100000).lead + 1 < 150000 ∧ 1 ≤ (150000 : Nat) ∧
      (tracking [board 1 0]).tt.table = [] ++ [board 1 0] ++ [] ∧ (0 : Nat) < 1 ∧
      s.tt.table.Pairwise (fun y z => z.lead < y.lead) := by decide

/-- The bounds of a window, of a forecast and of a span (R49, R51, R56). -/
theorem witness_TableBounds :
    let c := { sprayCfg with nozzle := 450000, leadMargin := 5000, trailMargin := 5000 }
    let span : SpanCfg := ⟨true, 445000, 455000⟩
    occupies c (board 1 445000) = true ∧ occupies c (board 1 444999) = false ∧ occupies c (board 1 555000) = true ∧
      occupies c (board 1 555001) = false ∧ inSpan span (board 1 445000) = true ∧ inSpan span (board 1 444999) = false ∧
      inSpan { span with used := false } (board 1 445000) = false ∧ timeToReach 200 360000 445000 = 425 ∧
      timeToReach 200 445000 445000 = 0 ∧ timeToReach 0 0 1 = 65535 ∧ timeToReach 1 0 65536 = 65535 ∧
      timeToReach 3 0 4 = 2 ∧ (tracking []).unservedPresent 3 = false := by decide

theorem witness_TableIsEvaluated :
    station.cl.image.chans[(0 : Chan)].mode ≠ .off ∧ Image.blank.chans[(0 : Chan)].mode = .off ∧
      (inState 0 { Channel.reset with st := .armed }).ac[(0 : Chan)].marksServed = true := by decide

theorem witness_OwnSensorCorrects :
    station.active = true ∧ station.cl.image.station.sensor = true ∧ station.cl.image.station.entrySource = false ∧
      station.pins.bsens = false ∧
      { station with pins.bsens := true, tt.sightActive := true }.tt.sightActive = true := by decide

/-- The one record of a table, where it is a candidate, is the nearest. -/
theorem nearest_of_one (r : BoardRec) (candidate : BoardRec → Bool) (d : BoardRec → Nat) (h : candidate r = true) :
    IsNearest [r] candidate d 0 r := by
  refine ⟨rfl, h, fun j x hj _ => ?_⟩
  cases j with
  | zero => obtain rfl := Option.some.inj hj; exact Or.inr ⟨rfl, Nat.le_refl 0⟩
  | succ j => cases hj

theorem witness_nearestLead :
    IsNearest (tracking [board 7 550000]).tt.table
      (fun r => !r.sighted && !r.missed && decide (distance r.lead 500000 ≤ 50000)) (fun x => distance x.lead 500000) 0
      (board 7 550000) := nearest_of_one _ _ _ (by decide)

theorem witness_SightsTaken :
    station.takes 3 = true ∧ (sending (.sight ⟨0, false, 5, 0⟩)).sends (.sight ⟨0, false, 5, 0⟩) = true ∧
      (tracking [board 7 550000]).tt.table = [] ++ board 7 550000 :: [] ∧ (board 7 550000).id = 7 ∧
      distance (board 7 550000).lead 500000 ≤ 50000 ∧ 50000 < distance (board 7 550001).lead 500000 ∧
      10 ≤ (10#16).toNat ∧ (650#16).toNat ≤ 650 ∧ (9#16).toNat < 10 ∧ 650 < (651#16).toNat := by decide

theorem witness_SpeedIsMeasured :
    station.active = true ∧ station.cl.image.station.speedSource = true ∧ Image.blank.station.speedSource = false ∧
      { station with tt.speedWindow := some 0 }.tt.speedWindow.isSome = true := by decide

theorem witness_SpeedIsTaken :
    station.takes 3 = true ∧ (sending (.speed 1001)).sends (.speed 1001) = true ∧ (sending (.speed 1001)).operating = true := by
  decide

theorem witness_TrackingIntervalAdvances :
    station.active = true ∧ { station with tt.interval := some 0 }.tt.interval.isSome = true := by decide

/-! ### Hypotheses met: the channels -/

theorem witness_channelSets : (0x0f#8 : BitVec 8) &&& 0xf0#8 = 0 ∧ (0x10#8 : BitVec 8) &&& 0xf0#8 ≠ 0 := by decide

theorem witness_ChHaltHalts :
    (station.commanded toUs = true ∧ (0x10#8 : BitVec 8) &&& 0xf0#8 ≠ 0) ∧
      station.commanded toAll = true ∧ (0x0f#8 : BitVec 8) &&& 0xf0#8 = 0 :=
  ⟨⟨witness_commanded.1, witness_channelSets.2⟩, witness_commanded.2.1, witness_channelSets.1⟩

theorem witness_ChHaltSaveHolds :
    (station.commanded toUs = true ∧ (0x10#8 : BitVec 8) &&& 0xf0#8 ≠ 0) ∧
      station.commanded toAll = true ∧ (0x0f#8 : BitVec 8) &&& 0xf0#8 = 0 := witness_ChHaltHalts

theorem witness_ChStartStarts :
    (0x01#8 : BitVec 8).getLsbD (0 : Chan).val = true ∧ (0x02#8 : BitVec 8).getLsbD (0 : Chan).val = false ∧
      station.chanPermit 0 = true ∧ { station with cl.image := Image.blank }.chanPermit 0 = false ∧
      station.cl.image.chans[(0 : Chan)].levelOwned = false ∧ station.ib.process ≠ .stopped ∧
      station.cl.image.chans[(0 : Chan)].mode ≠ .off ∧ station.ac[(0 : Chan)].st = .idle ∧
      { tracking [board 7 400000] with tt.windows := station.tt.windows.set (0 : Chan) ⟨true, 1⟩ }.unservedPresent 0 = true := by
  decide

theorem witness_ChContinueResumes :
    let held := fun (c : Saved) => inState 0 { Channel.reset with st := .held, saved := some c }
    let present := { held ⟨.on, some 0, 2⟩ with tt.windows := station.tt.windows.set (0 : Chan) ⟨true, 1⟩ }
    (held ⟨.on, some 0, 2⟩).commanded toUs = true ∧ (held ⟨.on, some 0, 2⟩).ac[(0 : Chan)].st = .held ∧
      (held ⟨.on, some 0, 2⟩).chanPermit 0 = true ∧ station.ac[(0 : Chan)].st ≠ .held ∧
      (held ⟨.on, some 0, 2⟩).cl.image.chans[(0 : Chan)].mode = .board ∧
      (held ⟨.on, some 0, 2⟩).tt.windows[(0 : Chan)].count = 0 ∧ present.tt.windows[(0 : Chan)].count ≠ 0 ∧
      present.ac[(0 : Chan)].saved = some ⟨.on, some 0, 2⟩ ∧ station.cl.image.chans[(0 : Chan)].onTime ≠ 0 ∧
      (held ⟨.armed, none, 0⟩).ac[(0 : Chan)].saved = some ⟨.armed, none, 0⟩ ∧
      { held ⟨.off, some 3, 2⟩ with cl.image := Image.blank }.chanPermit 0 = false := by decide

theorem witness_PhasesExpire :
    (inState 0 { Channel.reset with st := .delay, timer := some 0 }).ac[(0 : Chan)].timer.isSome = true ∧
      (inState 0 { Channel.reset with st := .off, timer := some 0 }).ac[(0 : Chan)].st = .off ∧
      (inState 0 { Channel.reset with st := .halting, timer := some 0 }).ac[(0 : Chan)].st = .halting ∧
      (inState 0 { Channel.reset with st := .on, timer := some 0 }).ac[(0 : Chan)].st = .on ∧
      station.cl.image.chans[(0 : Chan)].onTime ≠ 0 := by decide

theorem witness_InputsAct :
    let armed := inState 2 { Channel.reset with st := .armed }
    armed.pins.chreq[(2 : Chan)] = false ∧ armed.operating = true ∧ armed.cl.image.chans[(2 : Chan)].mode = .input ∧
      armed.ac[(2 : Chan)].st = .armed ∧ armed.pins.chend[(2 : Chan)] = false ∧ armed.cl.image.chans[(0 : Chan)].mode ≠ .input ∧
      (inState 2 { Channel.reset with st := .on }).ac[(2 : Chan)].st = .on ∧ station.ac[(2 : Chan)].st ≠ .armed ∧
      State.reset.operating = false := by decide

theorem witness_ChannelsFollow :
    let s := { tracking [board 7 400000] with ac := station.ac.set (0 : Chan) { Channel.reset with st := .armed } }
    State.reset.operating = false ∧ s.operating = true ∧ board 7 400000 ∈ s.tt.table ∧
      s.cl.image.chans[(0 : Chan)].mode = .board ∧ s.ac[(0 : Chan)].st = .armed ∧ s.tt.windows[(0 : Chan)].isOpen = false ∧
      occupies s.cl.image.chans[(0 : Chan)] (board 7 400000) = true ∧ (board 7 400000).servedFor 0 = false ∧
      (board 7 400000).trail ≤ (s.cl.image.station.forgetPosition : Int) ∧ (board 7 400000).lead < 8388607 := by decide

/-! ### Hypotheses met: the loops, the budget and the units -/

/-- The station with its control periods running. -/
def heating : State := { station with hl.begun := true, hl.tcTimer := some 0, hl.zcTimer := some 0 }

theorem witness_TemperatureIsConverted : heating.active = true ∧ heating.hl.tcTimer.isSome = true := by decide

/-- The station at the crossing that has ended the 100th half-cycle. -/
def overdue : State :=
  { heating with hl.loops := heating.hl.loops.set 0 { heating.hl.loops[(0 : LoopIx)] with enabled := true, sp := 2500, pos := 100 } }

/-- The same with a full queue of REPLYs of a restart and a line stop on the loop's flag C, whose STOP evicts one. -/
def overdueReset : State :=
  { overdue with
    li.queue := List.replicate 16 { queued (.reply ⟨30, 1, .done, []⟩) false 0 with restart := true }
    cl.image.stop := { Image.blank.stop with s0 := ⟨true, ⟨.flag .c 0, false⟩⟩ } }

theorem witness_CrossingsAreCounted :
    heating.active = true ∧ { heating with hl.lastCrossing := some 0 }.hl.lastCrossing.isSome = true ∧
      heating.hl.lastCrossing = none ∧ heating.hl.zcTimer.isSome = true ∧ 3999 < 4000 ∧ 4000 ≤ 4000 ∧
      heating.periodOver = false ∧ overdue.periodOver = true := by decide

theorem witness_overdueGoesOn : (finish overdue overdue.periodsExpire).active = true := by decide +kernel

theorem witness_overdueResets : (finish overdueReset overdueReset.periodsExpire).active = false := by
  have h : readable overdueReset ≠ readable overdueReset.periodsExpire ∧
      (settle 32 overdueReset.periodsExpire).cl.resetDue = true := by decide +kernel
  simp only [finish, h.1, h.2, if_false, if_true]
  exact restart_inactive _

theorem witness_ControlPeriodIsComputed :
    overdue.periodOver = true ∧ { overdue with hl.loops := heating.hl.loops }.periodOver = false := by decide

/-- There is no expiry before the 100th half-cycle has ended (R90). -/
theorem test_noExpiryMidPeriod :
    let s := { overdue with hl.loops := overdue.hl.loops.set 0 { overdue.hl.loops[(0 : LoopIx)] with pos := 99 } }
    onControlPeriodExpiry s = s := by decide

/-- A loss of mains does not lose the expiry that the last crossing made due (R90). -/
theorem test_mainsLostAfterExpiry :
    (after .mainsLost overdue).li.queue.map (·.frame.kind) = [.demand, .demand] ∧
      (after .mainsLost overdue).hl.mainsLost = true := by decide +kernel

/-- An entry that a DEMAND has refreshed survives an expiry of the same moment, and one whose time has run is removed (R109). -/
theorem test_demandBeforeExpiry :
    let s := { station with bu.table := [⟨9, 0, 0, 600, 0⟩] }
    (after (.entryAgeExpiry 9 0) (after (.demandTaken (.heard 9 ⟨9, 0, 0, 500⟩)) s)).bu.table = [⟨9, 0, 0, 500, 3000⟩] ∧
      (after (.entryAgeExpiry 9 0) s).bu.table = [] := by decide +kernel

theorem witness_LoopSetpointSets :
    station.commanded toUs = true ∧ 2 ≤ (2 : Byte).toNat ∧ station.cl.image.loops[(1 : LoopIx)].ganged = true ∧
      Image.blank.loops[(0 : LoopIx)].inUse = false ∧ station.cl.image.loops[(0 : LoopIx)].inUse = true ∧
      station.cl.image.loops[(0 : LoopIx)].spMin ≤ station.cl.image.loops[(0 : LoopIx)].spMax ∧
      (99#16).toNat < station.cl.image.loops[(0 : LoopIx)].spMin ∧
      station.cl.image.loops[(0 : LoopIx)].spMax < (4001#16).toNat := by decide

theorem witness_LoopsAreSwitched :
    (0x03#8 : BitVec 8) &&& 0xfc#8 = 0 ∧ (0x04#8 : BitVec 8) &&& 0xfc#8 ≠ 0 ∧ heating.loopRuns 0 = true ∧
      heating.forcedOff 0 = true := by decide

theorem witness_DemandIsTaken :
    station.takes 3 = true ∧ (sending (.demand ⟨8, 0, 1, 2000⟩)).sends (.demand ⟨8, 0, 1, 2000⟩) = true ∧
      (sending (.demand ⟨8, 0, 1, 2000⟩)).operating = true := by decide

/-- The station with own entries and a peer's, of both classes. -/
def announcing (d : Nat) : State :=
  { station with
    bu.table := [⟨8, 0, 0, 600, 3000⟩, ⟨8, 1, 1, 900, 3000⟩, ⟨9, 0, 0, d, 3000⟩]
    hl.loops :=
      #v[{ station.hl.loops[(0 : LoopIx)] with enabled := true }, { station.hl.loops[(1 : LoopIx)] with enabled := true }] }

theorem witness_GrantsStayWithinTheBudget :
    (basisOf { station with bu.startTimer := some 1 }).safe = true ∧ (basisOf (announcing 0)).safe = false ∧
      (announcing 0).ownEntry 0 = some ⟨8, 0, 0, 600, 3000⟩ ∧
      (announcing 400).cl.image.station.budget ≤ (basisOf (announcing 400)).s0 ∧
      (basisOf (announcing 0)).s0 < (announcing 0).cl.image.station.budget ∧
      (announcing 0).cl.image.station.budget - (basisOf (announcing 0)).s0 < (basisOf (announcing 0)).s1 ∧
      DemandsOk (announcing 0) ∧ 2 * (announcing 0).cl.image.station.safeGrant ≤ (announcing 0).cl.image.station.budget := by
  decide

theorem witness_LevelIsSampled :
    station.active = true ∧ station.cl.image.level.inUse = true ∧
      { station with lu.levelTimer := some 0 }.lu.levelTimer.isSome = true := by decide

theorem witness_FeederFollows :
    let asked := { station with lu.request := true }
    ownedChanOf asked.cl.image = some 3 ∧ asked.cl.image.chans[(3 : Chan)].mode = .free ∧ asked.feedAllowed = true ∧
      asked.lu.feeder = .rest ∧ station.feedAllowed = false ∧
      { station with lu.feeder := .feeding }.lu.feeder ≠ .rest ∧ Image.blank.level.inUse = false := by decide

theorem witness_ExtractionSteps :
    station.active = true ∧ station.cl.image.extraction.inUse = true ∧
      { station with xu.timer := some 0 }.xu.timer.isSome = true ∧ station.cl.image.extraction.watchedStation = 0 ∧
      { station with cl.image.extraction.watchedStation := 8 }.ownAddr.toNat = 8 := by decide

/-! ### Hypotheses met: monitor, interlock, loader -/

theorem witness_MonitorTimersExpire :
    station.active = true ∧ { station with mb.monitorTimer := some 0 }.mb.monitorTimer.isSome = true ∧
      { station with mb.alarm := .gap }.mb.alarm = .gap ∧ station.operating = true ∧
      { station with mb.statusTimer := some 0 }.mb.statusTimer.isSome = true := by decide

theorem witness_PeersAreHeard :
    station.hears 3 = true ∧ { station with cl.station := .joining }.hears 3 = true ∧
      (sending (.state station.stateContent)).sends (.state station.stateContent) = true ∧
      (sending (.join station.joinContent)).sends (.join station.joinContent) = true ∧
      (sending (.alarm ⟨0, true, false⟩)).sends (.alarm ⟨0, true, false⟩) = true ∧ station.ownAddr = 8 := by decide

theorem witness_AlarmsAreAcknowledged : station.commanded toUs = true ∧ station.commanded toAll = true :=
  ⟨witness_commanded.1, witness_commanded.2.1⟩

theorem witness_PermitsChange : station.commanded toUs = true ∧ station.commanded toAll = true :=
  witness_AlarmsAreAcknowledged

theorem witness_CellsFollow :
    let cell := fun (f : CellFn) => { CellCfg.blank with inUse := true, fn := f, a := ⟨.constant true, false⟩ }
    let s := fun (f : CellFn) (b c : Bool) =>
      { station with
        cl.image.cells := items.cells.set 0 { cell f with b := ⟨.constant b, false⟩, c := ⟨.constant c, false⟩ } }
    station.cl.image.cells[(0 : Ix8)].inUse = false ∧ (s .and true true).cl.image.cells[(0 : Ix8)].inUse = true ∧
      (s .latch true true).select (s .latch true true).cl.image.cells[(0 : Ix8)].b = true ∧
      (s .latch false true).select (s .latch false true).cl.image.cells[(0 : Ix8)].b = false ∧
      (s .latch false false).select (s .latch false false).cl.image.cells[(0 : Ix8)].c = false := by decide

theorem witness_StopUnitActs :
    let met := { station with pins.chreq := station.pins.chreq.set 0 true }
    met.active = true ∧ met.ib.stopUnit = .waiting ∧ met.stopCondition = true ∧ met.cl.image.stop.triggerTime ≠ 0 ∧
      { met with cl.image.stop.triggerTime := 0 }.stopCondition = true ∧
      { station with ib.stopUnit := .timing }.stopCondition = false ∧
      { station with ib.stopOut := .pulse }.ib.stopOut = .pulse := by decide

theorem witness_StopIsTakenAndResumed :
    station.takes 3 = true ∧ (sending (.stop 5)).sends (.stop 5) = true ∧ station.stopCondition = false ∧
      { station with pins.chreq := station.pins.chreq.set 0 true }.stopCondition = true := by decide

theorem witness_PartIsReset :
    { State.reset with cl.heldPin := true }.cl.heldPower = true ∧ State.reset.cl.heldPower ≠ State.reset.cl.heldPin ∧
      State.reset.cl.address = none := by decide

theorem witness_RestartIsAccepted :
    let stops := List.replicate 16 (queued (.stop 0) false 0)
    let joins := List.replicate 15 (queued (.stop 0) false 0)
    let last := queued (.join station.joinContent) false 0
    let before := fun (e : QEntry) => e.frame.rank < 6 ∨ (e.frame.rank = 6 ∧ e.moment ≤ station.now.moment)
    station.hears toUs.source = true ∧ station.addressed toUs = true ∧ station.cl.restartPending = false ∧
      before (queued (.reply ⟨30, 1, .done, []⟩) false 0) ∧ ¬before last ∧ toUs.dest ≠ broadcast ∧ toAll.dest = broadcast ∧ station.addressed ⟨30, 9⟩ = false ∧
      { station with cl.station := .conflict }.hears 30 = true ∧ { station with li.line := .mute }.hears 30 = true ∧
      station.li.queue = [] ++ [] ∧ station.li.line = .active ∧ station.cl.station = .operating ∧
      { station with li.queue := stops }.li.queue = joins ++ queued (.stop 0) false 0 :: [] ∧
      16 ≤ (joins ++ queued (.stop 0) false 0 :: []).length ∧ (queued (.stop 0) false 0).flight = none ∧
      (queued (.stop 0) false 0).frame.rank ≤ 6 ∧ { station with li.queue := joins ++ [last] }.li.queue = joins ++ last :: [] ∧
      16 ≤ (joins ++ last :: []).length ∧ last.flight = none ∧ 6 < last.frame.rank ∧ joins ++ [] = joins ++ [] ∧
      (∀ e ∈ joins, before e) ∧
      { station with cl.restartPending := true, cl.restartTimer := some 100 }.cl.restartTimer.isSome = true := by decide

/-- The station while it reads its image. -/
def loading : State :=
  { State.reset with cl := { Loader.reset with address := some 5, readTimer := some 100, busTimer := some 10 } }

/-- The smallest image whose blocks all pass their tests. -/
def goodBlocks : List Byte :=
  [0, 0, 1, 0, 0, 0, 5, 0, 0, 0, 0, 1] ++ List.replicate 101 0 ++ [1] ++ List.replicate 24 0 ++ [1] ++ List.replicate 15 0 ++
    [5, 0, 0, 0, 1, 0, 5] ++ List.replicate 10 0 ++ [1, 0, 1] ++ List.replicate 153 0 ++
    [0, 1, 0, 1, 0, 1, 0, 1, 0, 1, 0, 1, 0, 1, 0, 1]

theorem witness_goodBlocks : goodBlocks.length = 343 ∧ ∀ ok ∈ blockTests goodBlocks, ok = true := by decide
theorem witness_badBlock :
    (blockTests (List.replicate 343 0))[0]? = some false ∧ (0x1234#16 ≠ 0xc330#16) ∧ (342#16 ≠ 343#16) := by decide

theorem witness_ImageIsChecked : goodBlocks.length = 343 ∧ (∀ ok ∈ blockTests goodBlocks, ok = true) ∧ 0x4b33#16 ≠ 0xc330#16 :=
  ⟨witness_goodBlocks.1, witness_goodBlocks.2, by decide⟩

theorem witness_ImageIsRead :
    loading.cl.station = .loading ∧ loading.cl.readTimer.isSome = true ∧ loading.cl.address.isSome = true ∧
      checkImage [0, 0, 0, 0] = .bad ∧ loading.cl.readFails + 1 < 3 ∧
      3 ≤ { loading with cl.readFails := 2 }.cl.readFails + 1 := by decide

/-- The wait after a failed read is reached: the read timer does not run then. -/
theorem witness_readRetryWait :
    let failed := onImageReadFailed .timeout loading
    failed.cl.station = .loading ∧ failed.cl.readTimer = none ∧ failed.cl.retryTimer.isSome = true := by decide

theorem witness_OperatingIsEntered :
    let joining := { station with cl.station := .joining, cl.joinTimer := some 0 }
    joining.cl.station = .joining ∧ joining.cl.joinTimer.isSome = true := by decide

theorem witness_ConditionsAndOutputs :
    let p := { PointCfg.blank with inUse := true, isSignal := true, onSource := true }
    station.cl.station = .operating ∧ { station with cl.station := .conflict }.cl.station = .conflict ∧
      State.reset.cl.station ≠ .operating ∧ State.reset.cl.station ≠ .conflict ∧
      (announcing 0).ownEntry 0 = some ⟨8, 0, 0, 600, 3000⟩ ∧ p.isSignal = true ∧ p.onSource = true ∧
      PointCfg.blank.isSignal = false ∧ { State.reset with cl.station := .unconfigured }.cl.station = .unconfigured ∧
      Image.blank.station.gout0.cell = none ∧
      { Image.blank with station.gout0.cell := some 0 }.station.gout0.cell = some (0 : Ix8) := by decide

/-! ### Hypotheses met: the invariants -/

theorem witness_StepKeepsTheLine : LineOk State.reset ∧ LineOk station := by decide
theorem witness_StepKeepsTheTransitTable : StationOk State.reset ∧ StationOk station ∧ TableOk (tracking [board 7 500]) := by
  decide
theorem witness_StepKeepsStoppedChannelsIdle : ChannelsIdle station ∧ ChannelsIdle State.reset := by decide
theorem witness_StepKeepsTheAlarmLine : AlarmOk station ∧ AlarmOk State.reset := by
  have h : station.anyAlarmed = false := by simp [State.anyAlarmed, Vector.any_eq_false]; decide
  have g : State.reset.anyAlarmed = false := by simp [State.anyAlarmed, Vector.any_eq_false]; decide
  exact ⟨by simp only [AlarmOk, h]; decide, by simp only [AlarmOk, g]; decide⟩
theorem witness_StepKeepsTheRanges :
    LoopsOk station ∧ DemandsOk (announcing 0) ∧ CountersOk station ∧ UnitsOk station := by decide
theorem witness_steps : ∃ t, step { station with pending := [.encPulse] } = .next t := ⟨_, rfl⟩
theorem witness_SentFrameIsReadBack : (15 : Nat) < 16 ∧ (List.replicate 8 (0xff#8)).length ≤ 8 := by decide

end Sys2Proof.Tests
end

section
/-! PROOF. TOTALS-CLEAR at its owner (R42). -/

namespace Sys2Proof.Proofs.TotalsClear

open Sys2Proof Sys2Proof.Machine

/-! ### A command that its block acts on -/

/-- The step of a command that its block acts on: the block's answer on the acknowledged state, the REPLY where it is addressed,
and the end of the event. -/
theorem exec_of_commanded {s : State} {h : CmdHeader} (hc : s.commanded h = true) {c : Instr} {code : Byte}
    {act : State → Answer} (hexec : exec c s = answers s (s.command h code act)) :
    exec c s =
      .next (finish s
        ((act s.acked).state.replied h code (act s.acked).result (replyData (act s.acked).result (act s.acked).data))) := by
  rw [hexec, command_of_commanded hc]
  rfl

/-! ### The counters cleared -/

/-- Clearing a set of counters zeroes the named ones and leaves the others. -/
theorem clearTotals_getElem (counters : BitVec 8) (totals : Vector Total 5) (i : Fin 5) :
    (clearTotals counters totals)[i] = if counters.getLsbD i.val then Total.zero else totals[i] := by
  simp [clearTotals]

/-- An increment after a clear leaves 1: the total is far from its 8-digit end, so it does not roll (R40, R42). -/
theorem incr_zero : Total.zero.incr = { value := 1, rolled := false } := by
  have hlow : Total.zero.value ≠ 99999999 := by decide
  rw [Total.incr, if_neg hlow]
  rfl

/-! ### The block's answer -/

theorem counterSetOutOfRange_iff (counters : BitVec 8) : counterSetOutOfRange counters = true ↔ counters &&& 0xe0#8 ≠ 0 := by
  simp [counterSetOutOfRange]

/-- A set within the five counters clears them and is DONE. -/
theorem answerTotalsClear_of_inRange {counters : BitVec 8} (hr : counters &&& 0xe0#8 = 0) (s : State) :
    answerTotalsClear counters s =
      { state := { s with tt.totals := clearTotals counters s.tt.totals }, result := .done, data := [] } :=
  if_neg fun ho => (counterSetOutOfRange_iff counters).1 ho hr

/-- A set with a member outside the five counters clears none and is BAD-OPERAND. -/
theorem answerTotalsClear_of_outOfRange {counters : BitVec 8} (hr : counters &&& 0xe0#8 ≠ 0) (s : State) :
    answerTotalsClear counters s = refuse s .badOperand :=
  if_pos ((counterSetOutOfRange_iff counters).2 hr)

/-! ### The step -/

/-- TOTALS-CLEAR of a set within the five counters, acted on by its block. -/
theorem exec_totalsClear_of_inRange {s : State} {h : CmdHeader} (hc : s.commanded h = true) {counters : BitVec 8}
    (hr : counters &&& 0xe0#8 = 0) :
    exec (.totalsClear h counters) s =
      .next (finish s
        ({ s.acked with tt.totals := clearTotals counters s.tt.totals }.replied h codeTotalsClear .done [])) := by
  rw [exec_of_commanded (c := .totalsClear h counters) hc rfl, answerTotalsClear_of_inRange hr]
  rfl

/-- TOTALS-CLEAR of a set with a member outside the five counters, acted on by its block. -/
theorem exec_totalsClear_of_outOfRange {s : State} {h : CmdHeader} (hc : s.commanded h = true) {counters : BitVec 8}
    (hr : counters &&& 0xe0#8 ≠ 0) :
    exec (.totalsClear h counters) s = .next (finish s (s.acked.replied h codeTotalsClear .badOperand [])) := by
  rw [exec_of_commanded (c := .totalsClear h counters) hc rfl, answerTotalsClear_of_outOfRange hr]
  rfl

/-- Settles O12: by whether the set names a member outside the five counters. -/
theorem totalsClearClears : Obligations.TotalsClearClears := by
  intro s h counters hc
  refine ⟨fun hr => ?_, fun hr => exec_totalsClear_of_outOfRange hc hr, incr_zero⟩
  exact ⟨clearTotals counters s.tt.totals, clearTotals_getElem counters s.tt.totals, exec_totalsClear_of_inRange hc hr⟩

end Sys2Proof.Proofs.TotalsClear
end

section
/-! PROOF. PERMIT-GRANT and PERMIT-WITHDRAW at their owner (R163). -/

namespace Sys2Proof.Proofs.Permits

open Sys2Proof Sys2Proof.Machine
open Sys2Proof.Proofs.TotalsClear (exec_of_commanded)

/-! ### The granted set -/

/-- Each permit after a change: a named grant has the last word, then a named withdrawal, and one named in neither set keeps its
value. -/
theorem permitsAfter_getLsbD (permits grant withdraw : BitVec 16) (i : Fin 16) :
    (permitsAfter permits grant withdraw).getLsbD i.val =
      if grant.getLsbD i.val then true else if withdraw.getLsbD i.val then false else permits.getLsbD i.val := by
  rw [permitsAfter, BitVec.getLsbD_or, BitVec.getLsbD_and, BitVec.getLsbD_not, decide_eq_true i.isLt]
  cases grant.getLsbD i.val with
  | true => simp
  | false => cases withdraw.getLsbD i.val <;> simp

/-! ### The step -/

/-- The step of a command that changes the permits, acted on by its block: one DONE answer, whatever the two sets name. -/
theorem exec_of_changePermits {s : State} {h : CmdHeader} (hc : s.commanded h = true) {c : Instr} {code : Byte}
    {grant withdraw : BitVec 16} (hexec : exec c s = answers s (s.command h code (changePermits grant withdraw))) :
    exec c s =
      .next (finish s
        ({ s.acked with ib.permits := permitsAfter s.ib.permits grant withdraw }.replied h code .done
          (bytes16 (permitsAfter s.ib.permits grant withdraw)))) := by
  rw [exec_of_commanded hc hexec]
  rfl

/-- Settles O44: PERMIT-WITHDRAW is the change that grants nothing, so both commands are one step. -/
theorem permitsChange : Obligations.PermitsChange := by
  intro s h grant withdraw hc
  exact ⟨exec_of_changePermits (c := .permitGrant h grant withdraw) hc rfl,
    exec_of_changePermits (c := .permitWithdraw h withdraw) hc rfl,
    permitsAfter_getLsbD s.ib.permits grant withdraw⟩

end Sys2Proof.Proofs.Permits
end

section
/-! PROOF. What an event does, as a chain of acts: every command's effect, the readers and the end of an event are made of the
acts below, so that an invariant is proved by one look at each act and not by one look at each of the 81 commands. -/

namespace Sys2Proof.Proofs.Event

open Sys2Proof Sys2Proof.Machine

-- Proofs are elaborated in order: in the joined text the parallel ones would hold more threads at once than the memory limit allows.
set_option Elab.async false

/-! ### The acts -/

/-- A change that touches nothing an invariant reads, but for numbers that stay within their ranges. -/
structure Mild (s t : State) : Prop where
  queue : t.li.queue = s.li.queue := by rfl
  line : t.li.line = s.li.line := by rfl
  discards : t.li.discards = s.li.discards := by rfl
  good : t.li.good = s.li.good := by rfl
  table : t.tt.table = s.tt.table := by rfl
  chans : ∀ k : Chan, t.ac[k].st = s.ac[k].st ∧ t.ac[k].pulses = s.ac[k].pulses ∧ t.ac[k].saved = s.ac[k].saved := by
    exact fun _ => ⟨rfl, rfl, rfl⟩
  points : t.mb.points = s.mb.points := by rfl
  alarm : t.mb.alarm = s.mb.alarm := by rfl
  process : t.ib.process = s.ib.process := by rfl
  station : t.cl.station = s.cl.station := by rfl
  image : t.cl.image = s.cl.image := by rfl
  started : t.cl.started = s.cl.started := by rfl
  heldPower : t.cl.heldPower = s.cl.heldPower := by rfl
  heldPin : t.cl.heldPin = s.cl.heldPin := by rfl
  loops : LoopsOk s → LoopsOk t := by exact id
  demands : DemandsOk s → DemandsOk t := by exact id
  units : UnitsOk s → UnitsOk t := by exact id
  totals : (∀ i : Fin 5, s.tt.totals[i].value ≤ 99999999) → ∀ i : Fin 5, t.tt.totals[i].value ≤ 99999999 := by exact id
  encPulses : s.tt.pulses ≤ 65535 → t.tt.pulses ≤ 65535 := by exact id

/-- What the line interface does to its queue, its line state and its counts (R3 to R10). -/
inductive LineAct : State → State → Prop
  | start (s : State) : LineAct s (onAttemptStart s)
  | lost (s : State) : LineAct s (onLostArbitration s)
  | failed (s : State) : LineAct s (onAttemptFailed s)
  | bad (levels : List Bool) (s : State) : LineAct s (onFrameBad levels s)
  | complete (s : State) : LineAct s s.complete
  | queue (f : Frame) (restart : Bool) (s : State) : LineAct s (s.enqueueFor f restart)
  | count (s : State) (mute : s.li.line = .mute) (h : s.li.good + 1 ≠ 32) :
      LineAct s { s with li.good := s.li.good + 1 }
  | leave (s : State) (mute : s.li.line = .mute) : LineAct s (State.leaveMute { s with li.good := 32 })

/-- A transition of a channel that is not IDLE, or a start in OPERATING (chapter 4). -/
inductive ChanAct : State → State → Prop
  | halt (k : Chan) (s : State) : ChanAct s (s.haltChan k)
  | save (k : Chan) (s : State) : ChanAct s (haltSave s k).1
  | start (permit : Bool) (k : Chan) (s : State) (h : s.operating = true) : ChanAct s (s.startChan permit k).1
  | resume (permit : Bool) (k : Chan) (s : State) (h : s.ac[k].st = .held) :
      ChanAct s (s.continueHeld permit k (s.ac[k].saved.getD s.ac[k].context))
  | enterOn (k : Chan) (s : State) (h : s.ac[k].st ≠ .idle) : ChanAct s (s.enterOn k)
  | synchronize (k : Chan) (s : State) (h : s.ac[k].st ≠ .idle) : ChanAct s (s.synchronize k)
  | endRun (k : Chan) (cause : Cause) (s : State) (h : s.ac[k].st ≠ .idle) : ChanAct s (s.endRun k cause)
  | pulseEnds (k : Chan) (s : State) (h : s.ac[k].st ≠ .idle) : ChanAct s (s.pulseEnds k)
  | halted (k : Chan) (s : State) : ChanAct s (onHaltingExpiry k s)
  | permitLost (k : Chan) (s : State) : ChanAct s (s.permitLost k)
  | permitReturns (k : Chan) (s : State) : ChanAct s (s.permitReturns k)

/-- A change of the transit table with its evaluation (R22, R23, R28, R48). -/
inductive TableAct : State → State → Prop
  | correct (i lead : Nat) (f : BoardRec → BoardRec) (s : State)
      (h : ∀ r, s.tt.table[i]? = some r → (f r).id = r.id ∧
        (10 ≤ r.length ∧ r.length ≤ 650 → 10 ≤ (f r).length ∧ (f r).length ≤ 650)) :
      TableAct s (s.correct i lead f)
  | create (r : BoardRec) (s : State) (ho : s.operating = true) (hl : 10 ≤ r.length ∧ r.length ≤ 650)
      (hid : r.id = 0 ∨ ∀ x ∈ s.tt.table, x.id ≠ r.id) : TableAct s (s.create r)
  | remove (id : Byte) (s : State) : TableAct s (s.removeId id)
  | travel (e : Nat) (s : State) :
      TableAct s (State.evaluate { s with tt.table := s.tt.table.map fun r => { r with lead := advanceBy e r.lead } })

/-- A change of the points and the alarm line (R150 to R154). -/
inductive AlarmAct : State → State → Prop
  | sample (events : List (Option Update)) (s : State) (h : s.active = true) :
      AlarmAct s (({ s with mb.points := sampledPoints s events } : State).raiseLine
        (newlyRaised s.mb.points (sampledPoints s events)))
  | ack (points : BitVec 8) (s : State) (h : s.cl.station = .operating) :
      AlarmAct s (({ s with mb.points := ackPoints s points } : State).ackLine (decide (s.unackedSet &&& points ≠ 0)))
  | gap (s : State) : AlarmAct s (onGapTimerExpiry s)

/-- A change of the station state or of the process state (R19, R174, R176, R183 to R185). -/
inductive StationAct : State → State → Prop
  | conflict (s : State) (h : s.cl.station = .joining ∨ s.cl.station = .operating) : StationAct s s.enterConflict
  | unconfigured (s : State) (h : s.cl.station = .loading) :
      StationAct s { s with cl.station := .unconfigured, mb.alarm := .asserted }
  | joining (img : Image) (s : State) (h : s.cl.station = .loading) :
      StationAct s { s with cl.station := .joining, cl.image := img }
  | operating (s : State) (h : s.cl.station = .joining) :
      StationAct s { s with cl.station := .operating, cl.started := true }
  | run (s : State) (h : s.cl.station = .operating) : StationAct s { s with ib.process := .run }
  | stop (s : State) : StationAct s s.setStopped
  | reset (s : State) : StationAct s s.blockReset

/-- One act of an event. -/
inductive Act : State → State → Prop
  | mild {s t : State} (h : Mild s t) : Act s t
  | line {s t : State} (h : LineAct s t) : Act s t
  | chan {s t : State} (h : ChanAct s t) : Act s t
  | table {s t : State} (h : TableAct s t) : Act s t
  | alarm {s t : State} (h : AlarmAct s t) : Act s t
  | station {s t : State} (h : StationAct s t) : Act s t

/-- A chain of acts. -/
abbrev Acts : State → State → Prop := Relation.ReflTransGen Act

theorem Mild.acts {s t : State} (h : Mild s t) : Acts s t := .single (.mild h)
theorem LineAct.acts {s t : State} (h : LineAct s t) : Acts s t := .single (.line h)
theorem ChanAct.acts {s t : State} (h : ChanAct s t) : Acts s t := .single (.chan h)
theorem TableAct.acts {s t : State} (h : TableAct s t) : Acts s t := .single (.table h)
theorem AlarmAct.acts {s t : State} (h : AlarmAct s t) : Acts s t := .single (.alarm h)
theorem StationAct.acts {s t : State} (h : StationAct s t) : Acts s t := .single (.station h)

/-- What every act keeps, a chain of acts keeps. -/
theorem Acts.keeps {P : State → Prop} (hP : ∀ s t, Act s t → P s → P t) {s t : State} (h : Acts s t) (hs : P s) : P t := by
  induction h with
  | refl => exact hs
  | tail _ hbc ih => exact hP _ _ hbc ih

/-- A fold of steps that are chains of acts is one. -/
theorem Acts.foldl {α : Type} {f : State → α → State} (hf : ∀ s x, Acts s (f s x)) (l : List α) (s : State) :
    Acts s (l.foldl f s) :=
  foldl_within Acts (fun _ => .refl) (fun a b => a.trans b) f hf l s

end Sys2Proof.Proofs.Event
end

section
/-! PROOF. The readers of the catalogue and the end of an event are chains of acts. -/

namespace Sys2Proof.Proofs.Event

open Sys2Proof Sys2Proof.Machine

-- Proofs are elaborated in order: in the joined text the parallel ones would hold more threads at once than the memory limit allows.
set_option Elab.async false

/-! ### Queueing -/

theorem enqueueFor_acts (s : State) (f : Frame) (r : Bool) : Acts s (s.enqueueFor f r) := (LineAct.queue f r s).acts
theorem enqueue_acts (s : State) (f : Frame) : Acts s (s.enqueue f) := enqueueFor_acts s f false
theorem enqueueState_acts (s : State) : Acts s s.enqueueState := enqueue_acts s _
theorem enqueueJoin_acts (s : State) : Acts s s.enqueueJoin := enqueue_acts s _

/-! ### Loops -/

/-- A change of one loop that keeps its ranges. -/
theorem setLoop_mild (s : State) (i : LoopIx) (l : HeatLoop) (h : LoopsOk s → LoopOk l) :
    Mild s (s.setLoop i l) where
  loops hs j := by
    by_cases e : i = j
    · subst e; simpa using h hs
    · have : i.val ≠ j.val := fun x => e (Fin.ext x)
      simpa [this] using hs j

theorem forceOff_ok {l : HeatLoop} (h : LoopOk l) : LoopOk l.forceOff := by
  obtain ⟨h1, h2, h3, h4, h5, h6, -, -, h9⟩ := h
  exact ⟨h1, h2, h3, h4, h5, h6, Nat.zero_le _, Nat.zero_le _, h9⟩

theorem loopFollows_acts (s : State) (i : LoopIx) : Acts s (s.loopFollows i) := by
  unfold State.loopFollows
  split
  · exact (setLoop_mild s i _ fun hs => forceOff_ok (hs i)).acts
  · exact .refl

/-! ### The feeder -/

theorem feedStart_acts (s : State) : Acts s s.feedStart := by
  unfold State.feedStart
  split
  · exact .refl
  · rename_i k _
    have hs : Acts s (s.ownerStart k).1 := by
      unfold State.ownerStart
      split
      · rename_i ho
        exact (ChanAct.start _ k s ho).acts
      · exact .refl
    exact hs.trans (Mild.acts {})

theorem feedHalt_acts (s : State) : Acts s s.feedHalt := by
  unfold State.feedHalt
  cases ownedChanOf s.cl.image with
  | none => exact Mild.acts {}
  | some k => exact (ChanAct.halt k s).acts.trans (Mild.acts {})

theorem feedFollows_acts (s : State) : Acts s s.feedFollows := by
  unfold State.feedFollows
  split
  · split
    · exact (Mild.acts {}).trans (feedStart_acts _)
    · exact .refl
  · split
    · exact .refl
    · exact feedHalt_acts s
  · split
    · split
      · exact feedStart_acts s
      · exact .refl
    · exact feedHalt_acts s

/-! ### Wave running, fan target and cells -/

theorem waveFollows_acts (s : State) : Acts s s.waveFollows := by
  unfold State.waveFollows
  split
  · exact Mild.acts {}
  · exact .refl

theorem fanTarget_le (c : ExtractionCfg) (n : Nat) (w : Bool) : fanTarget c n w ≤ 1000 := Nat.min_le_left _ _

theorem extractionFollows_acts (s : State) : Acts s s.extractionFollows := by
  unfold State.extractionFollows
  dsimp only
  split
  · refine Mild.acts { units := ?_ }
    rintro ⟨hraw, hcomp, hvalid, -, rest⟩
    exact ⟨hraw, hcomp, hvalid, fanTarget_le _ _ _, rest⟩
  · exact .refl

theorem formCell_acts (s : State) (i : Ix8) : Acts s (s.formCell i) := by
  unfold State.formCell
  dsimp only
  split
  · exact Mild.acts {}
  · exact .refl

theorem formCells_acts (s : State) : Acts s s.formCells := by
  unfold State.formCells
  split
  · exact Acts.foldl formCell_acts all8 s
  · exact .refl

/-! ### Rounds -/

theorem blocksFollow_acts (s : State) : Acts s s.blocksFollow :=
  (loopFollows_acts s 0).trans ((loopFollows_acts _ 1).trans ((feedFollows_acts _).trans
    ((waveFollows_acts _).trans (extractionFollows_acts _))))

theorem channelsFollow_acts (s p : State) : Acts s (s.channelsFollow p) := by
  unfold State.channelsFollow
  split
  · refine Acts.foldl (fun t k => ?_) allChans s
    split
    · exact (ChanAct.permitReturns k t).acts
    · exact (ChanAct.permitLost k t).acts
  · exact .refl

theorem round_acts (s : State) : Acts s s.round :=
  (blocksFollow_acts s).trans ((formCells_acts _).trans ((channelsFollow_acts _ _).trans
    ((blocksFollow_acts _).trans (formCells_acts _))))

/-! ### The line-stop unit -/

theorem driveStop_acts (s : State) : Acts s s.driveStop := by
  unfold State.driveStop
  dsimp only
  split
  · exact Mild.acts {}
  · split
    · exact .refl
    · exact Mild.acts {}

theorem stopUnit_mild (s : State) (u : StopUnit) (x : Timer) : Mild s { s with ib.stopUnit := u, ib.triggerTimer := x } := {}

theorem trigger_acts (s : State) : Acts s s.trigger :=
  (StationAct.stop s).acts.trans ((driveStop_acts _).trans ((enqueue_acts _ (.stop s.stopCauses)).trans
    (stopUnit_mild _ .triggered none).acts))

theorem stopFollows_acts (s : State) : Acts s s.stopFollows := by
  unfold State.stopFollows
  split
  · split
    · split
      · exact trigger_acts s
      · exact Mild.acts {}
    · exact Mild.acts {}
    · exact Mild.acts {}
    · exact .refl
  · exact .refl

/-! ### The end of an event -/

theorem settle_acts : ∀ (n : Nat) (s : State), Acts s (settle n s)
  | 0, s => (stopFollows_acts s).trans ((blocksFollow_acts _).trans (formCells_acts _))
  | n + 1, s => by
    have h := (round_acts s).trans (stopFollows_acts _)
    unfold settle
    split
    · exact (round_acts s).trans (settle_acts n _)
    · split
      · exact h.trans (settle_acts n _)
      · exact h

/-- The entry to UNCONFIGURED from LOADING. -/
theorem enterUnconfigured_acts (s : State) (fault : FaultCode) (offending : Nat) (h : s.cl.station = .loading) :
    Acts s (s.enterUnconfigured fault offending) := by
  have ht : Acts s { s with
      cl.station := .unconfigured, cl.fault := fault, cl.offending := offending, cl.readTimer := none
      cl.busTimer := none, cl.retryTimer := none, li.filter := s.cl.address, mb.alarm := .asserted } :=
    (StationAct.unconfigured s h).acts.trans (Mild.acts {})
  unfold State.enterUnconfigured
  dsimp only
  split
  · exact ht.trans (enqueueJoin_acts _)
  · exact ht

theorem beginLoading_acts (s : State) (h : s.cl.station = .loading) : Acts s s.beginLoading := by
  unfold State.beginLoading
  split
  · exact enterUnconfigured_acts s _ _ h
  · exact Mild.acts {}

theorem restart_acts (s : State) : Acts s s.restart :=
  (StationAct.reset s).acts.trans ((Mild.acts {}).trans (beginLoading_acts _ rfl))

theorem momentEnds_mild (s : State) : Mild s s.momentEnds := {}

/-- The end of an event is a chain of acts of the readers, and the reset of a RESTART. -/
theorem finish_acts (s t : State) : Acts t (finish s t) := by
  have hr : Acts t (if readable s = readable t then t else settle 32 t) := by
    split
    · exact .refl
    · exact settle_acts 32 t
  unfold finish
  generalize (if readable s = readable t then t else settle 32 t) = r at hr
  have hreset : Acts r (if r.cl.resetDue then r.restart else r) := by
    split
    · exact restart_acts r
    · exact .refl
  exact hr.trans (hreset.trans (momentEnds_mild _).acts)

end Sys2Proof.Proofs.Event
end

section
/-! PROOF. What an evaluation of the transit table makes of its records, the windows' marks apart (R35, R36, R50). -/

namespace Sys2Proof.Proofs.Event

open Sys2Proof Sys2Proof.Machine

-- Proofs are elaborated in order: in the joined text the parallel ones would hold more threads at once than the memory limit allows.
set_option Elab.async false

/-- The records of the table apart from the marks that the windows give them. -/
def bodies (s : State) : List BoardRec := s.tt.table.map BoardRec.body

theorem map_bodies (s : State) (f : BoardRec → BoardRec) (h : ∀ r, (f r).body = r.body) (t : State)
    (ht : t.tt.table = s.tt.table.map f) : bodies t = bodies s := by
  rw [bodies, ht, List.map_map, bodies]
  exact List.map_congr_left fun r _ => h r

theorem bodies_of_table {s t : State} (h : t.tt.table = s.tt.table) : bodies t = bodies s := by rw [bodies, h, bodies]

/-! ### Channels mark records served, and nothing else -/

theorem markPresent_bodies (s : State) (k : Chan) : bodies (s.markPresent k) = bodies s :=
  map_bodies s _ (fun r => by split <;> rfl) _ rfl

theorem synchronize_table (s : State) (k : Chan) : (s.synchronize k).tt.table = s.tt.table := by
  unfold State.synchronize
  dsimp only
  split <;> rfl

theorem enterArmed_bodies (s : State) (k : Chan) : bodies (s.enterArmed k) = bodies s := by
  unfold State.enterArmed
  dsimp only
  split
  · exact bodies_of_table (synchronize_table _ k)
  · split
    · exact (bodies_of_table (synchronize_table _ k)).trans (markPresent_bodies _ k)
    · rfl
  · rfl
  · rfl

theorem terminate_bodies (s : State) (k : Chan) (c : Cause) (st : ChanState) : bodies (s.terminate k c st) = bodies s :=
  bodies_of_table (terminate_table s k c st)

theorem endRun_bodies (s : State) (k : Chan) (c : Cause) : bodies (s.endRun k c) = bodies s := by
  unfold State.endRun
  dsimp only
  split
  · exact (enterArmed_bodies _ k).trans (terminate_bodies s k _ _)
  · exact terminate_bodies s k _ _

theorem enterBlocked_bodies (s : State) (k : Chan) : bodies (s.enterBlocked k) = bodies s :=
  terminate_bodies s k .permit .blocked

theorem pulseEnds_bodies (s : State) (k : Chan) : bodies (s.pulseEnds k) = bodies s := by
  unfold State.pulseEnds
  dsimp only
  split
  · exact endRun_bodies _ k _
  · split
    · exact endRun_bodies _ k _
    · rfl

theorem windowOpens_table (s : State) (k : Chan) : (s.windowOpens k).tt.table = s.tt.table := by
  unfold State.windowOpens
  split
  · exact synchronize_table s k
  · rfl

theorem windowEmpty_bodies (s : State) (k : Chan) : bodies (s.windowEmpty k) = bodies s := by
  unfold State.windowEmpty
  split
  · exact endRun_bodies s k _
  · rfl

/-! ### The evaluation -/

/-- The window of a channel after its evaluation, and the records with the marks it gives them, before the channel reads either
(R37, R51, R52). -/
def windowed (s : State) (k : Chan) (isOpen : Bool) : State :=
  { s with
    tt.table := s.tt.table.map fun r =>
      r.inWindow (s.chanCfg k) k (s.ac[k].marksServed && isOpen) (!s.tt.windows[k].isOpen && isOpen)
    tt.windows := s.tt.windows.set k { isOpen := isOpen, count := s.tt.table.countP (occupies (s.chanCfg k)) } }

/-- Whether the window of a channel is open after its evaluation (R52). -/
def openAfter (s : State) (k : Chan) : Bool :=
  if s.tt.windows[k].isOpen then decide (0 < s.tt.table.countP (occupies (s.chanCfg k))) else s.unservedPresent k

theorem evalWindow_eq (s : State) (k : Chan) :
    s.evalWindow k =
      if (s.chanCfg k).mode = .off then s
      else if !s.tt.windows[k].isOpen && openAfter s k then (windowed s k (openAfter s k)).windowOpens k
      else if s.tt.table.countP (occupies (s.chanCfg k)) = 0 then (windowed s k (openAfter s k)).windowEmpty k
      else windowed s k (openAfter s k) := rfl

/-- What the evaluation of a window does: nothing for a channel in mode OFF; else the window, and then the channel where the
window opens or is found empty. -/
theorem evalWindow_cases (s : State) (k : Chan) :
    s.evalWindow k = s ∨ s.evalWindow k = windowed s k (openAfter s k) ∨
      s.evalWindow k = (windowed s k (openAfter s k)).windowOpens k ∨
      s.evalWindow k = (windowed s k (openAfter s k)).windowEmpty k := by
  rw [evalWindow_eq]
  split
  · exact .inl rfl
  · split
    · exact .inr (.inr (.inl rfl))
    · split
      · exact .inr (.inr (.inr rfl))
      · exact .inr (.inl rfl)

theorem windowed_bodies (s : State) (k : Chan) (isOpen : Bool) : bodies (windowed s k isOpen) = bodies s :=
  map_bodies s (fun r => r.inWindow (s.chanCfg k) k (s.ac[k].marksServed && isOpen) (!s.tt.windows[k].isOpen && isOpen))
    (fun _ => rfl) _ rfl

theorem evalWindow_bodies (s : State) (k : Chan) : bodies (s.evalWindow k) = bodies s := by
  obtain h | h | h | h := evalWindow_cases s k <;> rw [h]
  · exact windowed_bodies s k _
  · exact (bodies_of_table (windowOpens_table _ k)).trans (windowed_bodies s k _)
  · exact (windowEmpty_bodies _ k).trans (windowed_bodies s k _)

/-- The records that an evaluation keeps, before their windows mark them: those that have not passed, missed where they are
(R35, R36). -/
def keptRecords (s : State) : List BoardRec := (s.tt.table.map s.markMissed).filter fun r => !s.passed r

/-- The table as an evaluation leaves it before its windows: missed marks, then removals (R35, R36). -/
def kept (s : State) : State := State.removePassed { s with tt.table := s.tt.table.map s.markMissed }

theorem evaluate_eq (s : State) : s.evaluate = (allChans.foldl State.evalWindow (kept s)).evalCounts := rfl

theorem evalCounts_bodies (s : State) : bodies s.evalCounts = bodies s := rfl

theorem kept_bodies (s : State) : bodies (kept s) = (keptRecords s).map BoardRec.body := rfl

/-- The windows of an evaluation mark records and change no body. -/
theorem evaluate_bodies (s : State) : bodies s.evaluate = (keptRecords s).map BoardRec.body := by
  have hfold : ∀ (l : List Chan) (t : State), bodies (l.foldl State.evalWindow t) = bodies t := by
    intro l
    induction l with
    | nil => exact fun _ => rfl
    | cons k l ih => exact fun t => (ih _).trans (evalWindow_bodies t k)
  rw [evaluate_eq, evalCounts_bodies, hfold, kept_bodies]

/-- A record that an evaluation keeps is one of the table, missed perhaps. -/
theorem evaluate_ids (s : State) : (s.evaluate.tt.table.map (·.id)).Sublist (s.tt.table.map (·.id)) := by
  have h : s.evaluate.tt.table.map (·.id) = (keptRecords s).map (·.id) := by
    have hb := congrArg (List.map (·.id)) (evaluate_bodies s)
    rw [bodies, List.map_map, List.map_map] at hb
    exact hb
  have hm : (s.tt.table.map s.markMissed).map (·.id) = s.tt.table.map (·.id) := by
    rw [List.map_map]; rfl
  rw [h, ← hm]
  exact List.filter_sublist.map _

theorem mem_ids {id : Byte} {l : List BoardRec} : id ∈ l.map (·.id) ↔ ∃ x ∈ l, x.id = id := List.mem_map

/-- After the removal of an id no record holds it. -/
theorem removeId_fresh (s : State) (id : Byte) : ∀ x ∈ (s.removeId id).tt.table, x.id ≠ id := by
  intro x hx he
  unfold State.removeId at hx
  split at hx
  · have hm := (evaluate_ids _).subset (mem_ids.2 ⟨x, hx, he⟩)
    obtain ⟨y, hy, hid⟩ := mem_ids.1 hm
    simp only [List.mem_filter, decide_eq_true_eq] at hy
    exact hy.2 hid
  · rename_i h
    exact h (List.any_eq_true.2 ⟨x, hx, by simpa using he⟩)

/-- The record that the search for an id finds, at its index. -/
theorem findId_mem {id : Byte} {l : List BoardRec} {x : Nat × BoardRec} (h : findId id l = some x) :
    l[x.1]? = some x.2 ∧ x.2.id = id := by
  obtain ⟨y, hy, rfl⟩ := Option.map_eq_some_iff.1 h
  exact ⟨List.mem_zipIdx_iff_getElem?.1 (List.mem_of_find?_eq_some hy), by simpa using List.find?_some hy⟩

theorem findId_absent {id : Byte} {l : List BoardRec} (h : findId id l = none) : ∀ x ∈ l, x.id ≠ id := by
  intro x hx he
  obtain ⟨i, hi⟩ := List.mem_iff_getElem?.1 hx
  have hn := List.find?_eq_none.1 (Option.map_eq_none_iff.1 h) (x, i) (List.mem_zipIdx_iff_getElem?.2 hi)
  exact hn (by simpa using he)

end Sys2Proof.Proofs.Event
end

section
/-! PROOF. Taking a frame, sampling the points and the events of the blocks are chains of acts. -/

namespace Sys2Proof.Proofs.Event

open Sys2Proof Sys2Proof.Machine

-- Proofs are elaborated in order: in the joined text the parallel ones would hold more threads at once than the memory limit allows.
set_option Elab.async false

/-- An event that acts under a condition. -/
theorem ite_acts {p : Prop} [Decidable p] {s t : State} (h : p → Acts s t) : Acts s (if p then t else s) := by
  split
  · exact h ‹_›
  · exact .refl

/-! ### Sampling -/

theorem queueAlarm_acts (s : State) (i : Ix8) (r : Bool) : Acts s (s.queueAlarm i r) := by
  unfold State.queueAlarm
  dsimp only
  split
  · exact (enqueue_acts _ _).trans (enqueueState_acts _)
  · exact enqueue_acts _ _

theorem queueAlarms_acts (s : State) (before : Vector Point 8) : Acts s (s.queueAlarms before) := by
  refine Acts.foldl (fun t i => ?_) all8 s
  split
  · exact .refl
  · exact queueAlarm_acts _ _ _

theorem sample_acts (s : State) (events : List (Option Update)) (h : s.active = true) : Acts s (s.sample events) :=
  (AlarmAct.sample events s h).acts.trans (queueAlarms_acts _ _)

/-! ### Taking a frame -/

theorem conflicts_station {s : State} {source : Addr} (h : s.conflicts source = true) :
    s.cl.station = .joining ∨ s.cl.station = .operating := by
  unfold State.conflicts at h
  cases hs : s.cl.station <;> simp_all

theorem countGood_acts (s : State) (source : Addr) : Acts s (s.countGood source) := by
  unfold State.countGood
  refine ite_acts fun hm => ?_
  dsimp only
  split
  · rename_i h32
    rw [h32]
    exact (LineAct.leave s hm.1).acts.trans (settle_acts 32 _)
  · rename_i h32
    exact (LineAct.count s hm.1 h32).acts

theorem takeHeard_acts (s : State) (source : Addr) : Acts s (s.takeHeard source) := by
  have hd : Acts s s.slotDriven := Mild.acts {}
  refine hd.trans (Relation.ReflTransGen.trans ?_ (countGood_acts _ source))
  split
  · rename_i hc
    exact (StationAct.conflict s.slotDriven (conflicts_station hc)).acts
  · exact .refl

/-- A block other than the monitor's peer view receives frames in OPERATING alone (R14). -/
theorem delivers_operating {s : State} {k : Kind} (h : s.delivers k = true) (hs : k ≠ .state) (hj : k ≠ .join) :
    s.cl.station = .operating := by
  unfold State.delivers at h
  cases hst : s.cl.station <;> simp_all

theorem takeFrom_acts (s : State) (k : Kind) (source : Addr) (act : State → State)
    (h : ∀ t : State, t.delivers k = true → Acts t (act t)) : Acts s (s.takeFrom k source act) :=
  takeFrom_keeps (Acts s) s k source act .refl (takeHeard_acts s source) fun hd => (takeHeard_acts s source).trans (h _ hd)

theorem takeOwn_acts (s : State) (k : Kind) (act : State → Addr → Frame → State)
    (h : ∀ (t : State) (a : Addr) (f : Frame), t.delivers k = true → Acts t (act t a f)) : Acts s (s.takeOwn k act) :=
  takeOwn_keeps (Acts s) s k act .refl (LineAct.complete s).acts fun f hd => (LineAct.complete s).acts.trans (h _ _ f hd)

theorem command_acts (s : State) (h : CmdHeader) (code : Byte) (act : State → Answer)
    (hact : ∀ t : State, t.cl.station = .operating → Acts t (act t).state) : Acts s (s.command h code act) :=
  command_keeps (Acts s) s h code act .refl (takeHeard_acts s h.source) (fun _ f ht => ht.trans (enqueue_acts _ f))
    fun ho => (takeHeard_acts s h.source).trans (hact _ ho)

/-! ### The line interface -/

theorem ownUndelivered_acts (s : State) : Acts s (ownUndelivered s) := by
  unfold ownUndelivered
  split
  · exact .refl
  · split
    · exact .refl
    · exact (LineAct.complete s).acts

theorem onFrameTakenUndelivered_acts (rx : Rx RawFrame) (s : State) : Acts s (onFrameTakenUndelivered rx s) := by
  cases rx with
  | own => exact ownUndelivered_acts s
  | heard source f => exact ite_acts fun _ => takeHeard_acts s source

theorem onReplyTaken_acts (rx : Rx Unit) (s : State) : Acts s (onReplyTaken rx s) := by
  cases rx with
  | own => exact ite_acts fun _ => (LineAct.complete s).acts
  | heard source _ => exact ite_acts fun _ => takeHeard_acts s source

theorem onUnknownCommand_acts (source : Addr) (payload : List Byte) (s : State) : Acts s (onUnknownCommand source payload s) := by
  unfold onUnknownCommand
  refine ite_acts fun _ => (takeHeard_acts s source).trans ?_
  dsimp only
  exact ite_acts fun _ => enqueue_acts _ _

/-! ### The loader -/

theorem restartPending_mild (s : State) : Mild s { s with cl.restartPending := true, cl.restartTimer := some 100 } := {}

theorem onRestart_acts (h : CmdHeader) (s : State) : Acts s (onRestart h s) := by
  unfold onRestart
  refine ite_acts fun _ => (takeHeard_acts s h.source).trans ?_
  dsimp only
  refine ite_acts fun _ => ?_
  unfold State.acceptRestart
  dsimp only
  split
  · exact enqueue_acts _ _
  · exact (enqueueFor_acts _ _ true).trans (restartPending_mild _).acts

theorem configured_ok {l : HeatLoop} (c : LoopCfg) (h : LoopOk l) : LoopOk (l.configured c) := h

/-- What holds of both members of a vector of two holds of each. -/
theorem both_loops {P : HeatLoop → Prop} {a b : HeatLoop} (ha : P a) (hb : P b) : ∀ i : LoopIx, P (#v[a, b] : Vector HeatLoop 2)[i] := by
  intro i
  match i with
  | 0 => exact ha
  | 1 => exact hb

theorem enterJoining_acts (img : Image) (s : State) (h : s.cl.station = .loading) : Acts s (s.enterJoining img) := by
  unfold State.enterJoining
  refine (StationAct.joining img s h).acts.trans (Relation.ReflTransGen.trans (Mild.acts ?_) (enqueueJoin_acts _))
  exact { loops := fun hl => both_loops (configured_ok _ (hl 0)) (configured_ok _ (hl 1)) }

theorem reading_loading {s : State} (h : s.reading = true) : s.cl.station = .loading := by
  simp only [State.reading, Bool.and_eq_true, decide_eq_true_eq] at h
  exact h.1

theorem onImageReadComplete_acts (bytes : List Byte) (s : State) : Acts s (onImageReadComplete bytes s) := by
  unfold onImageReadComplete
  refine ite_acts fun hr => ?_
  have hs := reading_loading hr
  split
  · exact .refl
  · exact enterUnconfigured_acts s _ _ hs
  · exact enterUnconfigured_acts s _ _ hs
  · exact enterJoining_acts _ s hs

theorem onImageReadFailed_acts (cause : ReadFailure) (s : State) : Acts s (onImageReadFailed cause s) := by
  unfold onImageReadFailed
  refine ite_acts fun hr => ?_
  have hs := reading_loading hr
  dsimp only
  split
  · exact Mild.acts {}
  · have hm : Mild s { s with cl.readFails := s.cl.readFails + 1, cl.readTimer := none, cl.busTimer := none } := {}
    exact hm.acts.trans (enterUnconfigured_acts _ _ _ hs)

theorem converted_ok {l : HeatLoop} (offset : Int) (raw : Nat) (h : LoopOk l) : LoopOk (l.converted offset raw) := by
  obtain ⟨hpv, ho, hg, rest⟩ := h
  unfold HeatLoop.converted
  split
  · exact ⟨hpv, Nat.min_le_left _ _, Nat.zero_le _, rest⟩
  · exact ⟨Nat.min_le_left _ _, Nat.zero_le _, Nat.min_le_left _ _, rest⟩

theorem convert_acts (s : State) (i : LoopIx) (raw : Nat) : Acts s (s.convert i raw) := by
  unfold State.convert
  split
  · exact .refl
  · exact (setLoop_mild s i _ fun hs => converted_ok _ _ (hs i)).acts

theorem tcTimer_mild (s : State) (x : Timer) : Mild s { s with hl.tcTimer := x } := {}

theorem convertBoth_acts (s : State) (raw0 raw1 : Nat) : Acts s (s.convertBoth raw0 raw1) :=
  (convert_acts s 0 raw0).trans ((convert_acts _ 1 raw1).trans (tcTimer_mild _ (some 100)).acts)

theorem convert_active (s : State) (i : LoopIx) (raw : Nat) : (s.convert i raw).active = s.active := by
  unfold State.convert
  split <;> rfl

theorem convertBoth_active (s : State) (raw0 raw1 : Nat) : (s.convertBoth raw0 raw1).active = s.active :=
  (convert_active _ 1 raw1).trans (convert_active s 0 raw0)

/-! ### The level unit -/

/-- The ranges of the level unit alone. -/
abbrev LevelOk (l : LevelUnit) : Prop := (-500 ≤ l.raw ∧ l.raw ≤ 500) ∧ (-500 ≤ l.comp ∧ l.comp ≤ 500) ∧ l.valid ≤ 2

theorem counted_ok {l : LevelUnit} (x : Int) (h : LevelOk l) : LevelOk (l.counted x) := by
  obtain ⟨hraw, hcomp, hvalid⟩ := h
  unfold LevelUnit.counted
  split
  · rename_i hx
    have hr : -500 ≤ x ∧ x ≤ 500 := by simpa [levelValid] using hx
    split
    · split
      · exact ⟨hr, hcomp, Nat.zero_le _⟩
      · rename_i hn
        exact ⟨hr, hcomp, by dsimp only; omega⟩
    · exact ⟨hr, hcomp, hvalid⟩
  · exact ⟨hraw, hcomp, Nat.zero_le _⟩

theorem compensated_range (wave : Bool) (offset : Nat) {raw : Int} (h : -500 ≤ raw ∧ raw ≤ 500) :
    -500 ≤ compensated wave offset raw ∧ compensated wave offset raw ≤ 500 := by
  unfold compensated
  split
  · omega
  · exact h

theorem sampled_ok {l : LevelUnit} (c : LevelCfg) (x : Int) (h : LevelOk l) : LevelOk (l.sampled c x) := by
  have hc := counted_ok x h
  unfold LevelUnit.sampled
  dsimp only
  split
  · exact ⟨hc.1, compensated_range _ _ hc.1, hc.2.2⟩
  · exact hc

theorem convertLevel_mild (s : State) (reading : BitVec 10) : Mild s (s.convertLevel reading) where
  units := by
    rintro ⟨hraw, hcomp, hvalid, rest⟩
    obtain ⟨hraw', hcomp', hvalid'⟩ := sampled_ok s.cl.image.level reading.toInt ⟨hraw, hcomp, hvalid⟩
    exact ⟨hraw', hcomp', hvalid', rest⟩

/-! ### The entry to OPERATING -/

theorem firstConversions_acts (s : State) (raw0 raw1 : Nat) (level : BitVec 10) (h : s.active = true) :
    Acts s (s.firstConversions raw0 raw1 level) := by
  have ha : (s.convertBoth raw0 raw1).active = true := (convertBoth_active s raw0 raw1).trans h
  refine (convertBoth_acts s raw0 raw1).trans ?_
  unfold State.firstConversions
  dsimp only
  split
  · exact (convertLevel_mild _ level).acts.trans (sample_acts _ _ ha)
  · exact sample_acts _ _ ha

theorem operatingTimers_mild (s : State) :
    Mild s (State.startTimers { s with cl.joinTimer := none }) := {}

theorem enterOperating_acts (s : State) (raw0 raw1 : Nat) (level : BitVec 10) (h : s.cl.station = .joining) :
    Acts s (s.enterOperating raw0 raw1 level) :=
  (StationAct.operating s h).acts.trans ((operatingTimers_mild _).acts.trans
    ((firstConversions_acts _ raw0 raw1 level (by simp [State.active, State.operating, State.startTimers])).trans
      (enqueueState_acts _)))

end Sys2Proof.Proofs.Event
end

section
/-! PROOF. The control periods, the tables and the channels' commands are chains of acts. -/

namespace Sys2Proof.Proofs.Event

open Sys2Proof Sys2Proof.Machine

-- Proofs are elaborated in order: in the joined text the parallel ones would hold more threads at once than the memory limit allows.
set_option Elab.async false

/-! ### The control period -/

/-- The ranges of a loop whose output u is formed and whose applied output is not yet (R93). -/
abbrev Formed (l : HeatLoop) : Prop :=
  l.pv ≤ 5000 ∧ l.openCnt ≤ 3 ∧ l.goodCnt ≤ 3 ∧ l.integ ≤ 100000 ∧ l.u ≤ 1000 ∧ l.carry ≤ 9 ∧ l.pos ≤ 100

theorem formed_of_ok {l : HeatLoop} (h : LoopOk l) : Formed l := by
  obtain ⟨hpv, ho, hg, hi, -, hu, hc, -, hp⟩ := h
  exact ⟨hpv, ho, hg, hi, hu, hc, hp⟩

theorem computed_formed {l : HeatLoop} (c : LoopCfg) (due : Nat) (h : LoopOk l) : Formed (l.computed c due) := by
  obtain ⟨hpv, ho, hg, -, -, -, hc, -, hp⟩ := h
  exact ⟨hpv, ho, hg, Nat.min_le_left _ _, Nat.min_le_left _ _, hc, hp⟩

/-- A period has at most 100 half-cycles on (R97). -/
theorem quantised_ok {l : HeatLoop} (h : Formed l) (hout : l.uOut ≤ l.u) : LoopOk l.quantised := by
  obtain ⟨hpv, ho, hg, hi, hu, hc, hp⟩ := h
  have hhalf : (l.uOut + l.carry) / 10 ≤ 100 := by omega
  have hcarry : (l.uOut + l.carry) % 10 ≤ 9 := by omega
  exact ⟨hpv, ho, hg, hi, hout, hu, hcarry, hhalf, hp⟩

/-- No grant lets a loop apply more than it computed (R96). -/
theorem granted_ok {l : HeatLoop} (c : LoopCfg) (entry : Option DemandEntry) (g : Nat) (h : Formed l) :
    LoopOk (l.granted c entry g).quantised := by
  unfold HeatLoop.granted
  split
  · exact quantised_ok h (Nat.le_refl _)
  · exact quantised_ok h (Nat.min_le_left _ _)

theorem reduced_ok {l : HeatLoop} (n z : Bool) (h : LoopOk l) : LoopOk (l.reduced n z) := by
  obtain ⟨hpv, ho, hg, hi, -, -, -, -, hp⟩ := h
  exact ⟨hpv, ho, hg, hi, Nat.le_refl _, Nat.zero_le _, Nat.zero_le _, Nat.zero_le _, hp⟩

/-- The frame that announces a demand (R95). -/
def demandFrame (s : State) (i : LoopIx) (d : Nat) : Frame :=
  .demand
    { station := s.ownAddr.setWidth 8, loop := BitVec.ofNat 8 i.val, cls := BitVec.ofNat 8 (s.loopCfg i).cls
      demand := BitVec.ofNat 16 d }

/-- The announcement of a demand and the change of a loop before it act in either order. -/
theorem announceDemand_eq (s : State) (i : LoopIx) (l : HeatLoop) (d : Nat) :
    (s.setLoop i l).announceDemand i d = (s.enqueue (demandFrame s i d)).setLoop i { l with lastD := d } := by
  have hq := (enqueue_within s (demandFrame s i d)).same
  obtain ⟨-, -, hhl, hbu, -⟩ := hq
  have h := enqueue_heat s (demandFrame s i d)
    { s.hl with loops := (s.hl.loops.set i l).set i { l with lastD := d } } s.bu
  unfold State.announceDemand
  simp only [setLoop_hl, Fin.getElem_fin, Vector.getElem_set_self]
  refine h.trans ?_
  unfold State.setLoop
  rw [hhl, ← hbu, Vector.set_set]

theorem setLoop_self (s : State) (i : LoopIx) (l : HeatLoop) : (s.setLoop i l).hl.loops[i] = l := by simp

theorem setLoop_setLoop (s : State) (i : LoopIx) (l m : HeatLoop) : (s.setLoop i l).setLoop i m = s.setLoop i m := by
  simp only [State.setLoop, Vector.set_set]

/-- Queueing a frame leaves the budget unit's own entries alone. -/
theorem enqueue_ownEntry (s : State) (f : Frame) (i : LoopIx) : (s.enqueue f).ownEntry i = s.ownEntry i := by
  have h := (enqueue_within s f).same
  unfold State.ownEntry State.ownAddr
  simp only [h]

/-- The share of a loop whose output u is formed: its demand is announced, and its applied output and half-cycles follow from the
grant (R95 to R97). -/
theorem share_eq (s : State) (i : LoopIx) (l : HeatLoop) (b : ShareBasis) :
    (s.setLoop i l).share b i =
      (s.enqueue (demandFrame s i (demandOf (s.loopCfg i).rated l.u))).setLoop i
        (({ l with lastD := demandOf (s.loopCfg i).rated l.u } : HeatLoop).granted (s.loopCfg i) (s.ownEntry i)
          (grantOf s.cl.image.station b i (demandOf (s.loopCfg i).rated l.u))).quantised := by
  unfold State.share
  dsimp only
  rw [setLoop_self, announceDemand_eq, setLoop_self, setLoop_setLoop]
  have h := enqueue_ownEntry s (demandFrame s i (demandOf ((s.setLoop i l).loopCfg i).rated l.u)) i
  unfold State.ownEntry State.ownAddr at h ⊢
  rw [setLoop_bu, setLoop_cl, h]
  rfl

theorem enqueue_loopsOk {s : State} (f : Frame) (h : LoopsOk (s.enqueue f)) : LoopsOk s := by
  obtain ⟨-, -, hhl, -⟩ := (enqueue_within s f).same
  exact fun i => hhl ▸ h i

/-- The share of a loop whose output is formed brings it out within its ranges. -/
theorem share_acts (s : State) (i : LoopIx) (l : HeatLoop) (b : ShareBasis) (h : LoopsOk s → Formed l) :
    Acts s ((s.setLoop i l).share b i) := by
  have hl : LoopsOk s → Formed { l with lastD := demandOf (s.loopCfg i).rated l.u } := h
  rw [share_eq]
  exact (enqueue_acts s _).trans (setLoop_mild _ i _ fun ht => granted_ok _ _ _ (hl (enqueue_loopsOk _ ht))).acts

theorem announceDemand_acts (s : State) (i : LoopIx) (l : HeatLoop) (d : Nat) (h : LoopsOk s → LoopOk l) :
    Acts s ((s.setLoop i l).announceDemand i d) := by
  have hl : LoopsOk s → LoopOk { l with lastD := d } := h
  rw [announceDemand_eq]
  exact (enqueue_acts s _).trans (setLoop_mild _ i _ fun ht => hl (enqueue_loopsOk _ ht)).acts

theorem expireLoop_acts (s : State) (b : ShareBasis) (off : Bool) (i : LoopIx) : Acts s (s.expireLoop b off i) := by
  unfold State.expireLoop
  refine ite_acts fun _ => ?_
  split
  · unfold State.expireGanged
    dsimp only
    split
    · exact announceDemand_acts s 1 _ 0 fun hs => reduced_ok _ _ (hs 1)
    · refine share_acts s 1 _ b fun hs => ?_
      obtain ⟨hpv, ho, hg, hi, -, hc, hp⟩ := formed_of_ok (hs 1)
      exact ⟨hpv, ho, hg, hi, (formed_of_ok (hs 0)).2.2.2.2.1, hc, hp⟩
  · unfold State.expire
    dsimp only
    split
    · exact announceDemand_acts s i _ 0 fun hs => reduced_ok _ _ (hs i)
    · exact share_acts s i _ b fun hs => computed_formed _ _ (hs i)

theorem putPosition_acts (s : State) (f : Nat → Nat) (i : LoopIx) (hf : ∀ p, f p ≤ 100) : Acts s (s.putPosition f i) := by
  unfold State.putPosition
  refine ite_acts fun _ => (setLoop_mild s i _ fun hs => ?_).acts
  obtain ⟨hpv, ho, hg, hi, hout, hu, hc, hhalf, -⟩ := hs i
  exact ⟨hpv, ho, hg, hi, hout, hu, hc, hhalf, hf _⟩

theorem putPositions_acts (s : State) (f : Nat → Nat) (hf : ∀ p, f p ≤ 100) : Acts s (s.putPositions f) :=
  (putPosition_acts s f 0 hf).trans (putPosition_acts _ f 1 hf)

/-! ### What an expiry of the control periods leaves in place -/

/-- Only the loops, the share basis and the queue differ (R90 to R97). -/
def ByPeriods (s t : State) : Prop :=
  t = { s with
    hl.loops := t.hl.loops, bu.basis := t.bu.basis, li.queue := t.li.queue, li.txqLost := t.li.txqLost
    cl.resetDue := t.cl.resetDue }

theorem ByPeriods.refl (s : State) : ByPeriods s s := rfl
theorem ByPeriods.trans {s t u : State} (h : ByPeriods s t) (k : ByPeriods t u) : ByPeriods s u := by
  rw [ByPeriods] at *; rw [k, h]
theorem ByPeriods.ofQueue {s t : State} (h : ByQueue s t) : ByPeriods s t := by
  rw [ByQueue] at h; rw [ByPeriods, h]
theorem setLoop_byPeriods (s : State) (i : LoopIx) (l : HeatLoop) : ByPeriods s (s.setLoop i l) := rfl

theorem expireLoop_byPeriods (s : State) (b : ShareBasis) (off : Bool) (i : LoopIx) : ByPeriods s (s.expireLoop b off i) := by
  have hannounce : ∀ (j : LoopIx) (l : HeatLoop) (d : Nat), ByPeriods s ((s.setLoop j l).announceDemand j d) := by
    intro j l d
    rw [announceDemand_eq]
    exact (ByPeriods.ofQueue (enqueue_within s _)).trans (setLoop_byPeriods _ j _)
  have hshare : ∀ (j : LoopIx) (l : HeatLoop), ByPeriods s ((s.setLoop j l).share b j) := by
    intro j l
    rw [share_eq]
    exact (ByPeriods.ofQueue (enqueue_within s _)).trans (setLoop_byPeriods _ j _)
  unfold State.expireLoop State.expireGanged State.expire
  dsimp only
  split
  · split
    · split
      · exact hannounce _ _ _
      · exact hshare _ _
    · split
      · exact hannounce _ _ _
      · exact hshare _ _
  · rfl

theorem putPosition_byPeriods (s : State) (f : Nat → Nat) (i : LoopIx) : ByPeriods s (s.putPosition f i) := by
  unfold State.putPosition
  split
  · exact setLoop_byPeriods s i _
  · rfl

theorem putPositions_byPeriods (s : State) (f : Nat → Nat) : ByPeriods s (s.putPositions f) :=
  (putPosition_byPeriods s f 0).trans (putPosition_byPeriods _ f 1)

theorem ByPeriods.active {s t : State} (h : ByPeriods s t) : t.active = s.active := by
  rw [ByPeriods] at h; rw [h]; rfl

/-- The two expiries and the positions of the periods that begin, before the points sample (R90, R100, R112). -/
def expired (s : State) : State :=
  (({ s with bu.basis := some (basisOf s) } : State).expireLoop (basisOf s) (s.forcedOff 0) 0 |>.expireLoop (basisOf s)
    (s.forcedOff 1) 1).putPositions fun _ => 0

theorem periodsExpire_eq (s : State) : s.periodsExpire = (expired s).sample s.loopUpdates := rfl

theorem expired_byPeriods (s : State) : ByPeriods s (expired s) := by
  have hb : ByPeriods s { s with bu.basis := some (basisOf s) } := rfl
  exact hb.trans ((expireLoop_byPeriods _ _ _ 0).trans ((expireLoop_byPeriods _ _ _ 1).trans
    (putPositions_byPeriods _ _)))

theorem expired_acts (s : State) : Acts s (expired s) := by
  have hb : Mild s { s with bu.basis := some (basisOf s) } := {}
  exact hb.acts.trans ((expireLoop_acts _ _ _ 0).trans ((expireLoop_acts _ _ _ 1).trans
    (putPositions_acts _ _ fun _ => Nat.zero_le _)))

theorem periodOver_active {s : State} (h : s.periodOver = true) : s.active = true := by
  simp only [State.periodOver, State.periodsRun, Bool.and_eq_true] at h
  exact h.1.1.1.1

theorem onControlPeriodExpiry_acts (s : State) : Acts s (onControlPeriodExpiry s) := by
  unfold onControlPeriodExpiry
  refine ite_acts fun ho => ?_
  rw [periodsExpire_eq]
  exact (expired_acts s).trans (sample_acts _ _ ((expired_byPeriods s).active.trans (periodOver_active ho)))

/-! ### Mains timing -/

theorem begin_ok {l : HeatLoop} (h : LoopOk l) : LoopOk l.begin := by
  obtain ⟨hpv, ho, hg, hi, hout, hu, hc, -, -⟩ := h
  exact ⟨hpv, ho, hg, hi, hout, hu, hc, Nat.zero_le _, Nat.zero_le _⟩

theorem loseMains_ok {l : HeatLoop} (h : LoopOk l) : LoopOk l.loseMains := by
  obtain ⟨hpv, ho, hg, -, hout, hu, -, -, hp⟩ := h
  exact ⟨hpv, ho, hg, Nat.zero_le _, hout, hu, Nat.zero_le _, Nat.zero_le _, hp⟩

theorem countCrossing_acts (s : State) : Acts s s.countCrossing := by
  unfold State.countCrossing
  dsimp only
  split
  · exact Mild.acts { loops := fun hs => both_loops (begin_ok (hs 0)) (begin_ok (hs 1)) }
  · have hm : Mild s { s with hl.zcTimer := some 50, hl.lastCrossing := some s.now.ms } := {}
    exact hm.acts.trans (putPositions_acts _ _ fun _ => Nat.min_le_left _ _)

theorem onMainsLost_acts (s : State) : Acts s (onMainsLost s) :=
  ite_acts fun _ => Mild.acts { loops := fun hs => both_loops (loseMains_ok (hs 0)) (loseMains_ok (hs 1)) }

/-! ### The loop commands -/

theorem answerLoopSetpoint_acts (loop : Byte) (value : BitVec 16) (s : State) :
    Acts s (answerLoopSetpoint loop value s).state := by
  unfold answerLoopSetpoint
  split
  · unfold setLoopPoint
    dsimp only
    split
    · exact .refl
    · split
      · exact .refl
      · refine (setLoop_mild s _ _ ?_).acts
        exact fun hs => hs _
  · exact .refl

/-- A command on a set of loops is a chain of acts where it is one on each loop. -/
theorem onLoops_acts (set : BitVec 8) (act : State → LoopIx → State × ResultCode) (s : State)
    (h : ∀ t i, Acts t (act t i).1) : Acts s (onLoops set act s).state := by
  have hf : ∀ (l : List LoopIx) (x : State × ResultCode),
      Acts x.1 (l.foldl (fun x i => ((act x.1 i).1, worse x.2 (act x.1 i).2)) x).1 := by
    intro l
    induction l with
    | nil => exact fun _ => .refl
    | cons i l ih => exact fun x => (h x.1 i).trans (ih ((act x.1 i).1, worse x.2 (act x.1 i).2))
  unfold onLoops
  split
  · exact .refl
  · exact hf (loopsOf set) (s, .done)

theorem enableLoop_acts (s : State) (i : LoopIx) : Acts s (enableLoop s i).1 := by
  unfold enableLoop
  split
  · refine (setLoop_mild s i _ ?_).acts
    exact fun hs => hs i
  · exact .refl

theorem disableLoop_acts (s : State) (i : LoopIx) : Acts s (disableLoop s i).1 := by
  unfold disableLoop
  split
  · exact .refl
  · split
    · refine (setLoop_mild s i _ fun hs => ?_).acts
      obtain ⟨hpv, ho, hg, -, rest⟩ := forceOff_ok (hs i)
      exact ⟨hpv, ho, hg, Nat.zero_le _, rest⟩
    · exact .refl

/-! ### The budget unit -/

/-- The ranges of an entry of the demand table (R106). -/
abbrev EntryOk (e : DemandEntry) : Prop := e.cls ≤ 1 ∧ e.demand ≤ 2000 ∧ e.age ≤ 3000

theorem keyed_iff (e : DemandEntry) (station : Nat) (loop : LoopIx) :
    e.keyed station loop = true ↔ e.station = station ∧ e.loop = loop := by
  simp [DemandEntry.keyed]

theorem demandApplies_acts (s : State) (new : DemandEntry) (h : EntryOk new) :
    Acts s (s.demandApplies new) := by
  unfold State.demandApplies
  split
  · refine Mild.acts { demands := ?_ }
    rintro ⟨hlen, hkeys, hent⟩
    have hkey : ∀ e : DemandEntry, (if e.keyed new.station new.loop then
        { e with cls := new.cls, demand := new.demand, age := 3000 } else e).station = e.station ∧
        (if e.keyed new.station new.loop then
        { e with cls := new.cls, demand := new.demand, age := 3000 } else e).loop = e.loop := by
      intro e
      split <;> exact ⟨rfl, rfl⟩
    refine ⟨by simpa [refresh] using hlen, List.pairwise_map.2 (hkeys.imp fun {a b} hab => ?_), fun e he => ?_⟩
    · rw [(hkey a).1, (hkey a).2, (hkey b).1, (hkey b).2]
      exact hab
    · obtain ⟨x, hx, rfl⟩ := List.mem_map.1 he
      split
      · exact ⟨h.1, h.2.1, Nat.le_refl _⟩
      · exact hent x hx
  · rename_i hnone
    split
    · rename_i hroom
      refine Mild.acts { demands := ?_ }
      rintro ⟨-, hkeys, hent⟩
      refine ⟨by simpa using hroom, List.pairwise_append.2 ⟨hkeys, List.pairwise_singleton _ _, ?_⟩, fun e he => ?_⟩
      · intro a ha b hb hab
        rw [List.mem_singleton.1 hb] at hab
        exact hnone (List.any_eq_true.2 ⟨a, ha, (keyed_iff _ _ _).2 hab⟩)
      · rcases List.mem_append.1 he with he | he
        · exact hent e he
        · rw [List.mem_singleton.1 he]; exact h
    · exact Mild.acts {}

theorem demandArrives_acts (s : State) (source : Addr) (c : DemandContent) : Acts s (s.demandArrives source c) := by
  unfold State.demandArrives
  refine ite_acts fun hv => demandApplies_acts s _ ?_
  simp only [demandValid, Bool.and_eq_true, decide_eq_true_eq] at hv
  obtain ⟨⟨-, hcls⟩, hd⟩ := hv
  exact ⟨Nat.le_of_lt_succ hcls, hd, Nat.le_refl _⟩

theorem onDemandTaken_acts (rx : Rx DemandContent) (s : State) : Acts s (onDemandTaken rx s) := by
  cases rx with
  | own =>
    refine takeOwn_acts s _ _ fun t a f _ => ?_
    cases f with
    | demand c => exact demandArrives_acts t a c
    | _ => exact .refl
  | heard source c => exact takeFrom_acts s .demand source (fun t => t.demandArrives source c) fun t _ => demandArrives_acts t source c

theorem onEntryAgeExpiry_acts (station : Nat) (loop : LoopIx) (s : State) : Acts s (onEntryAgeExpiry station loop s) := by
  refine Mild.acts { demands := ?_ }
  rintro ⟨hlen, hkeys, hent⟩
  exact ⟨(List.length_filter_le _ _).trans hlen, hkeys.sublist List.filter_sublist,
    fun e he => hent e (List.mem_filter.1 he).1⟩

end Sys2Proof.Proofs.Event
end

section
/-! PROOF. The transit tracker's events, the channels' commands, the monitor's and the interlock's events are chains of acts, and so
is every command's effect. -/

namespace Sys2Proof.Proofs.Event

open Sys2Proof Sys2Proof.Machine

-- Proofs are elaborated in order: in the joined text the parallel ones would hold more threads at once than the memory limit allows.
set_option Elab.async false

/-! ### The transit tracker -/

/-- A record that a frame gives its place to: of a valid length, its id held by none or 0. -/
theorem create_acts (s : State) (r : BoardRec) (ho : s.cl.station = .operating) (hl : 10 ≤ r.length ∧ r.length ≤ 650)
    (hid : r.id = 0 ∨ ∀ x ∈ s.tt.table, x.id ≠ r.id) : Acts s (s.create r) :=
  (TableAct.create r s ((State.operating_iff s).2 ho) hl hid).acts

theorem entryArrives_acts (s : State) (c : EntryContent) (ho : s.cl.station = .operating) : Acts s (s.entryArrives c) := by
  unfold State.entryArrives
  dsimp only
  split
  · exact .refl
  · rename_i hlen
    have hst : (s.removeId c.id).cl.station = .operating := by
      have h := (removeId_within s c.id).same
      simp only [h, ho]
    refine (TableAct.remove c.id s).acts.trans (create_acts _ _ hst ?_ (.inr (removeId_fresh s c.id)))
    dsimp only
    omega

theorem relength_ok (r : BoardRec) {m : Nat} (hm : 10 ≤ m ∧ m ≤ 650) :
    (r.relength m).id = r.id ∧
      (10 ≤ r.length ∧ r.length ≤ 650 → 10 ≤ (r.relength m).length ∧ (r.relength m).length ≤ 650) := by
  unfold BoardRec.relength
  split
  · exact ⟨rfl, id⟩
  · exact ⟨rfl, fun _ => hm⟩

theorem ownSightArrives_acts (s : State) (a : Addr) (f : Frame) (ho : s.cl.station = .operating) :
    Acts s (ownSightArrives s a f) := by
  cases f with
  | sight c => exact ite_acts fun _ => create_acts s _ ho (by decide : 10 ≤ 10 ∧ 10 ≤ 650) (.inl rfl)
  | _ => exact .refl

theorem peerLead_acts (s : State) (id : Byte) (p : Nat) (ho : s.cl.station = .operating) : Acts s (s.peerLead id p) := by
  unfold State.peerLead
  split
  · split
    · exact create_acts s _ ho (by decide : 10 ≤ 10 ∧ 10 ≤ 650) (.inl rfl)
    · refine ite_acts fun _ => (TableAct.correct _ _ _ s ?_).acts
      exact fun _ _ => ⟨rfl, fun h => h⟩
  · rename_i hn
    exact create_acts s _ ho (by decide : 10 ≤ 10 ∧ 10 ≤ 650) (.inr (findId_absent hn))

theorem peerTrail_acts (s : State) (id : Byte) (p m : Nat) (ho : s.cl.station = .operating) :
    Acts s (s.peerTrail id p m) := by
  unfold State.peerTrail
  dsimp only
  split
  · exact .refl
  · rename_i hm
    have hm' : 10 ≤ m ∧ m ≤ 650 := by omega
    split
    · rename_i hid
      split
      · refine (TableAct.correct _ _ _ s ?_).acts
        exact fun _ _ => ⟨rfl, fun _ => hm'⟩
      · exact create_acts s _ ho hm' (.inl rfl)
    · split
      · refine ite_acts fun _ => (TableAct.correct _ _ _ s ?_).acts
        exact fun r _ => relength_ok r hm'
      · rename_i hn
        exact create_acts s _ ho hm' (.inr (findId_absent hn))

theorem onEntryTaken_acts (rx : Rx EntryContent) (s : State) : Acts s (onEntryTaken rx s) := by
  cases rx with
  | own =>
    refine takeOwn_acts s _ _ fun t a f hd => ?_
    have ho := delivers_operating hd (by decide) (by decide)
    cases f with
    | entry c => exact entryArrives_acts t c ho
    | _ => exact .refl
  | heard source c =>
    exact takeFrom_acts s .entry source (fun t => t.entryArrives c) fun t hd =>
      entryArrives_acts t c (delivers_operating hd (by decide) (by decide))

theorem onOwnSightTaken_acts (s : State) : Acts s (onOwnSightTaken s) :=
  takeOwn_acts s _ _ fun t a f hd => ownSightArrives_acts t a f (delivers_operating hd (by decide) (by decide))

theorem onPeerSightLeadTaken_acts (source : Addr) (id : Byte) (position : BitVec 23) (measured : BitVec 16) (s : State) :
    Acts s (onPeerSightLeadTaken source id position measured s) :=
  takeFrom_acts s .sight source (fun t => t.peerLead id position.toNat) fun t hd =>
    peerLead_acts t id _ (delivers_operating hd (by decide) (by decide))

theorem onPeerSightTrailTaken_acts (source : Addr) (id : Byte) (position : BitVec 23) (measured : BitVec 16) (s : State) :
    Acts s (onPeerSightTrailTaken source id position measured s) :=
  takeFrom_acts s .sight source (fun t => t.peerTrail id position.toNat measured.toNat) fun t hd =>
    peerTrail_acts t id _ _ (delivers_operating hd (by decide) (by decide))

theorem onEntryLeadingEdge_acts (tag : BitVec 3) (s : State) : Acts s (onEntryLeadingEdge tag s) := by
  unfold onEntryLeadingEdge
  dsimp only
  split
  · exact .refl
  · split
    · exact Mild.acts {}
    · exact Mild.acts {}

/-- The next board id lies in 1 to 255 (R27). -/
theorem idAfter_range {n : Nat} (h : 1 ≤ n ∧ n ≤ 255) : 1 ≤ idAfter n ∧ idAfter n ≤ 255 := by
  unfold idAfter
  split <;> omega

theorem announce_acts (s : State) (length : Nat) : Acts s (s.announce length) := by
  have hm : Mild s { s with tt.nextId := idAfter s.tt.nextId } :=
    { units := by
        rintro ⟨hraw, hcomp, hvalid, ht, ho, hp, ha, hs, hid⟩
        exact ⟨hraw, hcomp, hvalid, ht, ho, hp, ha, hs, idAfter_range hid⟩ }
  exact hm.acts.trans (enqueue_acts _ _)

theorem entryEnds_mild (s : State) : Mild s { s with pins.bsens := false, tt.entryActive := false } := {}
theorem entryEndsLong_mild (s : State) :
    Mild s { s with pins.bsens := false, tt.entryActive := false, tt.longBoard := true, tt.longTimer := some 5000 } := {}

theorem onEntryTrailingEdge_acts (s : State) : Acts s (onEntryTrailingEdge s) := by
  unfold onEntryTrailingEdge
  refine ite_acts fun _ => ?_
  dsimp only
  split
  · split
    · exact Mild.acts {}
    · split
      · exact (entryEnds_mild s).acts.trans (announce_acts _ _)
      · exact (entryEndsLong_mild s).acts.trans (announce_acts _ _)
  · exact Mild.acts {}

theorem bsens_mild (s : State) (b : Bool) : Mild s { s with pins.bsens := b } := {}
theorem sightStarts_mild (s : State) : Mild s { s with tt.sightActive := true, tt.sightAcc := 0 } := {}
theorem sightEnds_mild (s : State) : Mild s { s with pins.bsens := false, tt.sightActive := false } := {}

theorem sightLead_acts (s : State) : Acts s s.sightLead := by
  unfold State.sightLead
  split
  · exact enqueue_acts _ _
  · refine (TableAct.correct _ _ _ s ?_).acts.trans (enqueue_acts _ _)
    exact fun _ _ => ⟨rfl, fun h => h⟩

theorem onSightLeadingEdge_acts (s : State) : Acts s (onSightLeadingEdge s) := by
  unfold onSightLeadingEdge
  dsimp only
  split
  · exact .refl
  · split
    · exact (bsens_mild s true).acts.trans ((sightLead_acts _).trans (sightStarts_mild _).acts)
    · exact (bsens_mild s true).acts

theorem measuredLength_range (acc : Nat) : 10 ≤ measuredLength acc ∧ measuredLength acc ≤ 650 := by
  unfold measuredLength
  omega

theorem sightTrail_acts (s : State) {m : Nat} (hm : 10 ≤ m ∧ m ≤ 650) : Acts s (s.sightTrail m) := by
  unfold State.sightTrail
  split
  · exact .refl
  · refine (TableAct.correct _ _ _ s ?_).acts.trans (enqueue_acts _ _)
    exact fun r _ => relength_ok r hm

theorem onSightTrailingEdge_acts (s : State) : Acts s (onSightTrailingEdge s) := by
  unfold onSightTrailingEdge
  refine ite_acts fun _ => ?_
  dsimp only
  split
  · exact (sightEnds_mild s).acts.trans (sightTrail_acts _ (measuredLength_range _))
  · exact (bsens_mild s false).acts

theorem onEncPulse_acts (s : State) : Acts s (onEncPulse s) :=
  ite_acts fun _ => Mild.acts { encPulses := fun _ => Nat.min_le_left _ _ }

theorem windowRestarts_mild (s : State) : Mild s { s with tt.pulses := 0, tt.speedWindow := some 100 } :=
  { encPulses := fun _ => Nat.zero_le _ }

theorem onSpeedWindowExpiry_acts (s : State) : Acts s (onSpeedWindowExpiry s) :=
  ite_acts fun _ => (windowRestarts_mild s).acts.trans (enqueue_acts _ _)

theorem speedArrives_mild (s : State) (source : Addr) (value : BitVec 16) : Mild s (s.speedArrives source value) where
  units := by
    rintro ⟨hraw, hcomp, hvalid, ht, ho, hp, ha, -, hid⟩
    exact ⟨hraw, hcomp, hvalid, ht, ho, hp, ha, Nat.min_le_left _ _, hid⟩

theorem onSpeedTaken_acts (rx : Rx (BitVec 16)) (s : State) : Acts s (onSpeedTaken rx s) := by
  cases rx with
  | own =>
    refine takeOwn_acts s _ _ fun t a f _ => ?_
    cases f with
    | speed c => exact (speedArrives_mild t a c).acts
    | _ => exact .refl
  | heard source v =>
    exact takeFrom_acts s .speed source (fun t => t.speedArrives source v) fun t _ => (speedArrives_mild t source v).acts

theorem table_active {s t : State} (h : ByTable s t) : t.active = s.active := by
  rw [ByTable] at h
  rw [h]
  rfl

/-- The measurements advanced and the interval begun, the records not yet moved (R48). -/
def measured (s : State) : State :=
  { s with tt.entryAcc := s.advance.tt.entryAcc, tt.sightAcc := s.advance.tt.sightAcc, tt.interval := some 10 }

theorem measured_mild (s : State) : Mild s (measured s) := {}

theorem onTrackingIntervalExpiry_acts (s : State) : Acts s (onTrackingIntervalExpiry s) := by
  unfold onTrackingIntervalExpiry
  refine ite_acts fun ha => ?_
  have ht : Acts s (State.evaluate { s.advance with tt.interval := some 10 }) :=
    (measured_mild s).acts.trans (TableAct.travel s.effectiveSpeed (measured s)).acts
  exact ht.trans (sample_acts _ _ ((table_active (evaluate_within _)).trans ha.1))

theorem answerTotalsRead_state (counter : Byte) (s : State) : (answerTotalsRead counter s).state = s := by
  unfold answerTotalsRead
  split <;> rfl

theorem answerTransitRead_state (index part : Byte) (s : State) : (answerTransitRead index part s).state = s := by
  unfold answerTransitRead
  split <;> rfl

theorem answerTotalsClear_acts (counters : BitVec 8) (s : State) : Acts s (answerTotalsClear counters s).state := by
  unfold answerTotalsClear
  split
  · exact .refl
  · refine Mild.acts { totals := fun h i => ?_ }
    simp only [clearTotals, Fin.getElem_fin, Vector.getElem_mapIdx]
    split
    · exact Nat.zero_le _
    · exact h i

/-! ### The channels -/

/-- A command on a set of channels is a chain of acts where it is one on each channel in OPERATING. -/
theorem onChans_acts (set : BitVec 8) (act : State → Chan → State × ResultCode) (s : State)
    (ho : s.cl.station = .operating)
    (h : ∀ t k, t.cl.station = .operating → Acts t (act t k).1 ∧ (act t k).1.cl.station = .operating) :
    Acts s (onChans set act s).state := by
  have hf : ∀ (l : List Chan) (x : State × ResultCode), x.1.cl.station = .operating →
      Acts x.1 (l.foldl (fun x k => ((act x.1 k).1, worse x.2 (act x.1 k).2)) x).1 := by
    intro l
    induction l with
    | nil => exact fun _ _ => .refl
    | cons k l ih =>
      intro x hx
      obtain ⟨ha, hs⟩ := h x.1 k hx
      exact ha.trans (ih ((act x.1 k).1, worse x.2 (act x.1 k).2) hs)
  unfold onChans
  split
  · exact .refl
  · exact hf (chansOf set) (s, .done) ho

theorem channels_station {s t : State} (h : ByChannels s t) : t.cl.station = s.cl.station := by
  rw [ByChannels] at h; rw [h]

theorem startFromLine_acts (p s : State) (k : Chan) (ho : s.cl.station = .operating) :
    Acts s (startFromLine p s k).1 ∧ (startFromLine p s k).1.cl.station = .operating := by
  unfold startFromLine
  split
  · exact ⟨.refl, ho⟩
  · exact ⟨(ChanAct.start _ k s ((State.operating_iff s).2 ho)).acts, (channels_station (startChan_within s _ k)).trans ho⟩

theorem inhibit_mild (s : State) : Mild s { s with lu.inhibit := true } := {}

theorem haltFromLine_acts (s : State) (k : Chan) (ho : s.cl.station = .operating) :
    Acts s (haltFromLine s k).1 ∧ (haltFromLine s k).1.cl.station = .operating := by
  have ha := (ChanAct.halt k s).acts
  have hs := (channels_station (haltChan_within s k)).trans ho
  unfold haltFromLine
  dsimp only
  split
  · exact ⟨ha.trans (inhibit_mild _).acts, hs⟩
  · exact ⟨ha, hs⟩

theorem haltSave_within (s : State) (k : Chan) : ByChannels s (haltSave s k).1 := by
  unfold haltSave
  split
  · rfl
  · split <;> rfl

theorem restore_within (s : State) (k : Chan) (c : Saved) : ByChannels s (s.restore k c) := by
  have h : ∀ x : Channel, ByChannels s (s.setChan k x) := setChan_within s k
  unfold State.restore
  dsimp only
  split
  · exact (h _).trans (enterArmed_within _ k)
  · split
    · split
      · exact (h _).trans ((markPresent_within _ k).trans (pulseEnds_within _ k))
      · exact (h _).trans (pulseEnds_within _ k)
    · split
      · exact (h _).trans (markPresent_within _ k)
      · exact h _

theorem continueHeld_within (s : State) (permit : Bool) (k : Chan) (c : Saved) : ByChannels s (s.continueHeld permit k c) := by
  unfold State.continueHeld
  split
  · exact enterBlocked_within s k
  · split
    · exact endRun_within s k _
    · exact restore_within s k c

theorem continueFromLine_acts (p s : State) (k : Chan) (ho : s.cl.station = .operating) :
    Acts s (continueFromLine p s k).1 ∧ (continueFromLine p s k).1.cl.station = .operating := by
  unfold continueFromLine
  split
  · exact ⟨.refl, ho⟩
  · split
    · exact ⟨.refl, ho⟩
    · split
      · exact ⟨.refl, ho⟩
      · rename_i hh
        exact ⟨(ChanAct.resume _ k s (not_not.1 hh)).acts, (channels_station (continueHeld_within s _ k _)).trans ho⟩

theorem answerChQuery_state (chan : Byte) (s : State) : (answerChQuery chan s).state = s := by
  unfold answerChQuery
  split <;> rfl

/-- A phase of a channel expires where the channel is in it. -/
theorem inPhase_st {s : State} {k : Chan} {st : ChanState} (h : s.inPhase k st = true) : s.ac[k].st = st := by
  simp only [State.inPhase, Bool.and_eq_true, decide_eq_true_eq] at h
  exact h.1

theorem not_idle {s : State} {k : Chan} {st : ChanState} (h : s.ac[k].st = st) (hn : st ≠ .idle) : s.ac[k].st ≠ .idle :=
  fun e => hn (h.symm.trans e)

theorem inRun_not_idle {c : Channel} (h : c.inRun = true) : c.st ≠ .idle := by
  intro e
  simp [Channel.inRun, e] at h

theorem onChreqAssertion_acts (k : Chan) (s : State) : Acts s (onChreqAssertion k s) := by
  unfold onChreqAssertion
  dsimp only
  split
  · exact .refl
  · have hm : Mild s { s with pins.chreq := s.pins.chreq.set k true } := {}
    refine hm.acts.trans (ite_acts fun h => (ChanAct.synchronize k _ ?_).acts)
    simp only [Bool.and_eq_true, decide_eq_true_eq] at h
    exact not_idle h.2 (by decide)

theorem onChendAssertion_acts (k : Chan) (s : State) : Acts s (onChendAssertion k s) := by
  unfold onChendAssertion
  dsimp only
  split
  · exact .refl
  · have hm : Mild s { s with pins.chend := s.pins.chend.set k true } := {}
    refine hm.acts.trans (ite_acts fun h => (ChanAct.endRun k .inputEnd _ ?_).acts)
    simp only [Bool.and_eq_true] at h
    exact inRun_not_idle h.2

/-! ### The monitor -/

theorem ramp_le {step target output : Nat} (ht : target ≤ 1000) (ho : output ≤ 1000) : ramp step target output ≤ 1000 := by
  unfold ramp
  split <;> omega

theorem stepped_mild (s : State) (reading : Nat) : Mild s { s with xu := s.xu.stepped s.cl.image.extraction reading } where
  units := by
    rintro ⟨hraw, hcomp, hvalid, ht, ho, hp, -, rest⟩
    exact ⟨hraw, hcomp, hvalid, ht, ramp_le ht ho, hp, Nat.min_le_left _ _, rest⟩

theorem gains_mild (s : State) (gain0 gain1 : Fin 1001) :
    Mild s { s with mb.gain0 := gain0.val, mb.gain1 := gain1.val, mb.monitorTimer := some 100 } := {}

theorem onStatusTimerExpiry_acts (s : State) : Acts s (onStatusTimerExpiry s) := by
  have hm : Mild s { s with mb.statusTimer := some 250 } := {}
  exact ite_acts fun _ => hm.acts.trans (enqueueState_acts _)

theorem joinArrives_acts (s : State) (source : Addr) : Acts s (s.joinArrives source) := by
  unfold State.joinArrives
  split
  · exact .refl
  · exact Mild.acts {}

theorem joinMark_mild (s : State) : Mild s { s with cl.joinMark := true } := {}

theorem ownJoinArrives_acts (s : State) (source : Addr) (f : Frame) : Acts s (ownJoinArrives s source f) := by
  unfold ownJoinArrives
  dsimp only
  split
  · exact (joinArrives_acts s source).trans (joinMark_mild _).acts
  · exact joinArrives_acts s source

theorem stateArrives_mild (s : State) (source : Addr) (c : StateContent) : Mild s (s.stateArrives source c) := {}
theorem alarmArrives_mild (s : State) (source : Addr) (c : AlarmContent) : Mild s (s.alarmArrives source c) := {}

theorem onStateTaken_acts (rx : Rx StateContent) (s : State) : Acts s (onStateTaken rx s) := by
  cases rx with
  | own =>
    refine takeOwn_acts s _ _ fun t a f _ => ?_
    cases f with
    | state c => exact (stateArrives_mild t a c).acts
    | _ => exact .refl
  | heard source c =>
    exact takeFrom_acts s .state source (fun t => t.stateArrives source c) fun t _ => (stateArrives_mild t source c).acts

theorem onJoinTaken_acts (rx : Rx JoinContent) (s : State) : Acts s (onJoinTaken rx s) := by
  cases rx with
  | own => exact takeOwn_acts s _ _ fun t a f _ => ownJoinArrives_acts t a f
  | heard source c => exact takeFrom_acts s .join source (fun t => t.joinArrives source) fun t _ => joinArrives_acts t source

theorem onAlarmTaken_acts (rx : Rx AlarmContent) (s : State) : Acts s (onAlarmTaken rx s) := by
  cases rx with
  | own =>
    refine takeOwn_acts s _ _ fun t a f _ => ?_
    cases f with
    | alarm c => exact (alarmArrives_mild t a c).acts
    | _ => exact .refl
  | heard source c =>
    exact takeFrom_acts s .alarm source (fun t => t.alarmArrives source c) fun t _ => (alarmArrives_mild t source c).acts

theorem answerAlarmAck_acts (points : BitVec 8) (s : State) (ho : s.cl.station = .operating) :
    Acts s (answerAlarmAck points s).state :=
  (AlarmAct.ack points s ho).acts.trans (queueAlarms_acts _ _)

/-! ### The interlock -/

theorem answerResume_acts (s : State) (ho : s.cl.station = .operating) : Acts s (answerResume s).state := by
  unfold answerResume
  split
  · exact .refl
  · have hm : Mild s { s with ib.stopOut := stopAfterResume s.ib.stopOut } := {}
    exact hm.acts.trans (StationAct.run { s with ib.stopOut := stopAfterResume s.ib.stopOut } ho).acts

theorem lastStop_mild (s : State) (r : StopRecord) : Mild s { s with ib.lastStop := some r } := {}

theorem stopArrives_acts (s : State) (source : Addr) (causes : BitVec 3) : Acts s (s.stopArrives source causes) :=
  (StationAct.stop s).acts.trans (lastStop_mild _ _).acts

theorem onStopTaken_acts (rx : Rx (BitVec 3)) (s : State) : Acts s (onStopTaken rx s) := by
  cases rx with
  | own =>
    refine takeOwn_acts s _ _ fun t a f _ => ?_
    cases f with
    | stop c => exact stopArrives_acts t a c
    | _ => exact .refl
  | heard source c =>
    exact takeFrom_acts s .stop source (fun t => t.stopArrives source c) fun t _ => stopArrives_acts t source c

theorem answerLevelFeedReset_acts (s : State) : Acts s (answerLevelFeedReset s).state := by
  unfold answerLevelFeedReset
  split
  · exact Mild.acts {}
  · exact .refl

end Sys2Proof.Proofs.Event
end

section
/-! PROOF. Every command's effect is a chain of acts, but for RESET and RESET_RELEASE, which move the held causes; and what every
act keeps, every step keeps. -/

namespace Sys2Proof.Proofs.Event

open Sys2Proof Sys2Proof.Machine

-- Proofs are elaborated in order: in the joined text the parallel ones would hold more threads at once than the memory limit allows.
set_option Elab.async false

/-- The two commands that begin and end a held cause (R176). -/
def movesHeld : Instr → Bool
  | .reset _ => true
  | .resetRelease _ _ => true
  | _ => false

/-- Every command's effect but that of RESET and RESET_RELEASE is a chain of acts. -/
theorem effect_acts (c : Instr) (s : State) (hc : movesHeld c = false) : Acts s (effect c s) := by
  cases c with
  | attemptStart => exact (LineAct.start s).acts
  | lostArbitration => exact (LineAct.lost s).acts
  | attemptFailed => exact (LineAct.failed s).acts
  | frameBad levels => exact (LineAct.bad levels s).acts
  | frameTakenUndelivered rx => exact onFrameTakenUndelivered_acts rx s
  | replyTaken rx => exact onReplyTaken_acts rx s
  | commandNotAddressed h => exact ite_acts fun _ => takeHeard_acts s h.source
  | unknownCommand source payload => exact onUnknownCommand_acts source payload s
  | restart h => exact onRestart_acts h s
  | restartTimerExpiry => exact ite_acts fun _ => Mild.acts {}
  | transitRead h index part =>
    exact command_acts s h _ _ fun t _ => by rw [answerTransitRead_state]
  | totalsRead h counter => exact command_acts s h _ _ fun t _ => by rw [answerTotalsRead_state]
  | totalsClear h counters => exact command_acts s h _ _ fun t _ => answerTotalsClear_acts counters t
  | chStart h chans =>
    exact command_acts s h _ _ fun t ho => onChans_acts chans (startFromLine t) t ho fun u k => startFromLine_acts t u k
  | chHalt h chans => exact command_acts s h _ _ fun t ho => onChans_acts chans haltFromLine t ho haltFromLine_acts
  | chHaltSave h chans =>
    refine command_acts s h _ _ fun t ho => onChans_acts chans haltSave t ho fun u k hu => ?_
    exact ⟨(ChanAct.save k u).acts, (channels_station (haltSave_within u k)).trans hu⟩
  | chContinue h chans =>
    exact command_acts s h _ _ fun t ho => onChans_acts chans (continueFromLine t) t ho fun u k => continueFromLine_acts t u k
  | chQuery h chan => exact command_acts s h _ _ fun t _ => by rw [answerChQuery_state]
  | loopSetpoint h loop value => exact command_acts s h _ _ fun t _ => answerLoopSetpoint_acts loop value t
  | loopEnable h loops => exact command_acts s h _ _ fun t _ => onLoops_acts loops enableLoop t enableLoop_acts
  | loopDisable h loops => exact command_acts s h _ _ fun t _ => onLoops_acts loops disableLoop t disableLoop_acts
  | levelFeedReset h => exact command_acts s h _ _ fun t _ => answerLevelFeedReset_acts t
  | alarmAck h points => exact command_acts s h _ _ fun t ho => answerAlarmAck_acts points t ho
  | permitGrant h grant withdraw => exact command_acts s h _ _ fun t _ => Mild.acts {}
  | permitWithdraw h withdraw => exact command_acts s h _ _ fun t _ => Mild.acts {}
  | permitQuery h test => exact command_acts s h _ _ fun t _ => .refl
  | resume h => exact command_acts s h _ _ fun t ho => answerResume_acts t ho
  | entryLeadingEdge tag => exact onEntryLeadingEdge_acts tag s
  | entryTrailingEdge => exact onEntryTrailingEdge_acts s
  | longBoardTimerExpiry => exact ite_acts fun _ => Mild.acts {}
  | entryTaken rx => exact onEntryTaken_acts rx s
  | sightLeadingEdge => exact onSightLeadingEdge_acts s
  | sightTrailingEdge => exact onSightTrailingEdge_acts s
  | ownSightTaken => exact onOwnSightTaken_acts s
  | peerSightLeadTaken source id position measured => exact onPeerSightLeadTaken_acts source id position measured s
  | peerSightTrailTaken source id position measured => exact onPeerSightTrailTaken_acts source id position measured s
  | encPulse => exact onEncPulse_acts s
  | speedWindowExpiry => exact onSpeedWindowExpiry_acts s
  | speedTaken rx => exact onSpeedTaken_acts rx s
  | staleTimerExpiry => exact ite_acts fun _ => Mild.acts {}
  | sourceTimerExpiry => exact ite_acts fun _ => Mild.acts {}
  | conflictTimerExpiry => exact ite_acts fun _ => Mild.acts {}
  | trackingIntervalExpiry => exact onTrackingIntervalExpiry_acts s
  | delayExpiry k => exact ite_acts fun h => (ChanAct.enterOn k s (not_idle (inPhase_st h) (by decide))).acts
  | onTimeExpiry k => exact ite_acts fun h => (ChanAct.pulseEnds k s (not_idle (inPhase_st h) (by decide))).acts
  | offPhaseExpiry k => exact ite_acts fun h => (ChanAct.enterOn k s (not_idle (inPhase_st h) (by decide))).acts
  | haltingExpiry k => exact (ChanAct.halted k s).acts
  | chreqAssertion k => exact onChreqAssertion_acts k s
  | chendAssertion k => exact onChendAssertion_acts k s
  | generalInputChange pin level => exact Mild.acts {}
  | tcConversion raw0 raw1 =>
    exact ite_acts fun h => (convertBoth_acts s raw0 raw1).trans (sample_acts _ _ ((convertBoth_active s raw0 raw1).trans h.1))
  | zeroCrossing sinceLast => exact ite_acts fun _ => countCrossing_acts s
  | mainsLost => exact onMainsLost_acts s
  | controlPeriodExpiry => exact onControlPeriodExpiry_acts s
  | demandTaken rx => exact onDemandTaken_acts rx s
  | entryAgeExpiry station loop => exact onEntryAgeExpiry_acts station loop s
  | refusalTimerExpiry => exact ite_acts fun _ => Mild.acts {}
  | startTimerExpiry => exact ite_acts fun _ => Mild.acts {}
  | levelSample reading =>
    exact ite_acts fun h => (convertLevel_mild s reading).acts.trans (sample_acts _ _ h.1)
  | settleTimerExpiry => exact ite_acts fun _ => Mild.acts {}
  | feedTimerExpiry => exact ite_acts fun _ => Mild.acts {}
  | extractionTimerExpiry reading => exact ite_acts fun h => (stepped_mild s reading).acts.trans (sample_acts _ _ h.1)
  | monitorTimerExpiry gain0 gain1 =>
    exact ite_acts fun h => (gains_mild s gain0 gain1).acts.trans (sample_acts _ _ h.1)
  | gapTimerExpiry => exact (AlarmAct.gap s).acts
  | statusTimerExpiry => exact onStatusTimerExpiry_acts s
  | stateTaken rx => exact onStateTaken_acts rx s
  | joinTaken rx => exact onJoinTaken_acts rx s
  | alarmTaken rx => exact onAlarmTaken_acts rx s
  | silenceTimerExpiry station => exact Mild.acts {}
  | graceTimerExpiry => exact ite_acts fun _ => Mild.acts {}
  | triggerTimerExpiry => exact ite_acts fun _ => trigger_acts s
  | widthTimerExpiry => exact ite_acts fun _ => Mild.acts {}
  | stopTaken rx => exact onStopTaken_acts rx s
  | reset cause => cases hc
  | resetRelease cause straps => cases hc
  | imageReadComplete bytes => exact onImageReadComplete_acts bytes s
  | imageReadFailed cause => exact onImageReadFailed_acts cause s
  | readRetryWaitExpiry => exact ite_acts fun _ => Mild.acts {}
  | joinTimerExpiry raw0 raw1 level => exact ite_acts fun h => enterOperating_acts s raw0 raw1 level h.1
  | firstIdleAfterReset =>
    show Acts s (if s.held then s else { s with li.synced := true })
    split
    · exact .refl
    · exact Mild.acts {}
  | requestOrEndInputRelease isEnd k =>
    show Acts s (if isEnd then _ else _)
    split
    · exact Mild.acts {}
    · exact Mild.acts {}

/-! ### What acts leave in place -/

/-- What the line interface does leaves every other block alone but for the due reset (R177). -/
theorem lineAct_within {s t : State} (h : LineAct s t) : t = { s with li := t.li, cl.resetDue := t.cl.resetDue } := by
  cases h with
  | start => unfold onAttemptStart; split <;> rfl
  | lost => unfold onLostArbitration; split <;> rfl
  | failed =>
    unfold onAttemptFailed
    dsimp only
    repeat' split
    all_goals rfl
  | bad levels => unfold onFrameBad; split <;> rfl
  | complete => rfl
  | queue f restart =>
    have h := enqueueFor_within s f restart
    rw [ByQueue] at h
    rw [h]
  | count _ mute h => rfl
  | leave _ mute =>
    have h := enqueueJoin_within ({ s with li.good := 32, li.line := .active, li.discards := 0 } : State)
    rw [ByQueue] at h
    unfold State.leaveMute
    rw [h]

theorem chanAct_within {s t : State} (h : ChanAct s t) : ByChannels s t := by
  cases h with
  | halt k => exact haltChan_within s k
  | save k => exact haltSave_within s k
  | start permit k => exact startChan_within s permit k
  | resume permit k => exact continueHeld_within s permit k _
  | enterOn k => exact enterOn_within s k
  | synchronize k => exact synchronize_within s k
  | endRun k cause => exact endRun_within s k cause
  | pulseEnds k => exact pulseEnds_within s k
  | halted k =>
    unfold onHaltingExpiry
    dsimp only
    split
    · exact (countPulse_within s k).trans (setChan_within _ k _)
    · rfl
  | permitLost k => exact permitLost_within s k
  | permitReturns k => exact permitReturns_within s k

theorem tableAct_within {s t : State} (h : TableAct s t) : ByTable s t := by
  cases h with
  | correct i lead f => exact correct_within s i lead f
  | create r => exact create_within s r
  | remove id => exact removeId_within s id
  | travel e => refine ByTable.trans ?_ (evaluate_within _); rfl

/-- The beginning of LOADING leaves alone what the line interface, the loader and the alarm line do not hold. -/
theorem beginLoading_within (s : State) :
    s.beginLoading = { s with li := s.beginLoading.li, cl := s.beginLoading.cl, mb.alarm := s.beginLoading.mb.alarm } := by
  unfold State.beginLoading
  split
  · unfold State.enterUnconfigured
    dsimp only
    split
    · have h := enqueueJoin_within ({ s with
        cl.station := .unconfigured, cl.fault := .addressBad, cl.offending := 0, cl.readTimer := none
        cl.busTimer := none, cl.retryTimer := none, li.filter := s.cl.address, mb.alarm := .asserted } : State)
      rw [ByQueue] at h
      rw [h]
    · rfl
  · rfl

/-! ### The passing of time -/

theorem tick_mild (s : State) : Mild s s.tick where
  chans k := by simp [State.tick]
  demands := by
    rintro ⟨hlen, hkeys, hent⟩
    refine ⟨by simpa [State.tick, Budget.tick] using hlen, List.pairwise_map.2 hkeys, fun e he => ?_⟩
    obtain ⟨x, hx, rfl⟩ := List.mem_map.1 he
    exact ⟨(hent x hx).1, (hent x hx).2.1, (Nat.sub_le _ _).trans (hent x hx).2.2⟩
  units := by
    rintro ⟨hraw, hcomp, hvalid, ht, ho, -, rest⟩
    exact ⟨hraw, hcomp, hvalid, ht, ho, ho, rest⟩

theorem idle_acts (s : State) : Acts s (idle s) := by
  unfold idle
  split
  · exact Mild.acts {}
  · exact (tick_mild s).acts

/-! ### Steps -/

/-- What every act and every move of a held cause keep, every command's effect keeps, where it holds of the LOADING that a
release may begin. -/
theorem effect_keeps {P : State → Prop} (hP : ∀ s t, Act s t → P s → P t)
    (hheld : ∀ (s : State) (power pin : Bool), P s → P { s with cl.heldPower := power, cl.heldPin := pin })
    (c : Instr) (s : State) (hs : P s)
    (hload : ∀ (straps : BitVec 5) (power pin : Bool), s.held = true →
      P (State.beginLoading { s with pins.straps := straps, cl.heldPower := power, cl.heldPin := pin })) :
    P (effect c s) := by
  cases hc : movesHeld c with
  | false => exact (effect_acts c s hc).keeps hP hs
  | true =>
    cases c with
    | reset cause =>
      have hr : P s.blockReset := hP _ _ (.station (.reset s)) hs
      cases cause with
      | power => exact hheld _ true s.cl.heldPin hr
      | pin => exact hheld _ s.cl.heldPower true hr
    | resetRelease cause straps =>
      have hm : Mild s { s with pins.straps := straps } := {}
      have hp := hP _ _ (.mild hm) hs
      show P (if s.holds cause then _ else s)
      split
      · rename_i hh
        dsimp only
        cases cause with
        | power =>
          split
          · exact hheld _ false s.cl.heldPin hp
          · exact hload straps false s.cl.heldPin (Bool.or_eq_true_iff.2 (.inl hh))
        | pin =>
          split
          · exact hheld _ s.cl.heldPower false hp
          · exact hload straps s.cl.heldPower false (Bool.or_eq_true_iff.2 (.inr hh))
      · exact hs
    | _ => cases hc

/-- What every act and every move of a held cause keep, every step keeps. -/
theorem act_step_keeps {P : State → Prop} (hP : ∀ s t, Act s t → P s → P t)
    (hheld : ∀ (s : State) (power pin : Bool), P s → P { s with cl.heldPower := power, cl.heldPin := pin })
    (hload : ∀ (s : State) (straps : BitVec 5) (power pin : Bool), s.held = true → P s →
      P (State.beginLoading { s with pins.straps := straps, cl.heldPower := power, cl.heldPin := pin }))
    {s t : State} (hs : P s) (h : step s = .next t) : P t := by
  refine step_keeps P (fun c u hu => ?_) (fun u l hu => ?_) (fun u hu => ?_) s t hs h
  · exact (finish_acts u _).keeps hP (effect_keeps hP hheld c u hu fun straps power pin hh => hload u straps power pin hh hu)
  · have hm : Mild u { u with pending := l } := {}
    exact hP _ _ (.mild hm) hu
  · exact (idle_acts u).keeps hP hu

end Sys2Proof.Proofs.Event
end

section
/-! PROOF. Every step keeps the line interface's invariant (R3 to R10). -/

namespace Sys2Proof.Proofs.LineInvariant

open Sys2Proof Sys2Proof.Machine Sys2Proof.Proofs.Event

-- Proofs are elaborated in order: in the joined text the parallel ones would hold more threads at once than the memory limit allows.
set_option Elab.async false

/-! ### The queue -/

/-- A change of each entry that keeps its frame and its moment, starts no attempt and adds no failure past the third, keeps the
queue's invariant. -/
theorem queueOk_map {q : List QEntry} (f : QEntry → QEntry) (h : QueueOk q)
    (hframe : ∀ e, (f e).frame = e.frame ∧ (f e).moment = e.moment)
    (hflight : ∀ e, (f e).flight.isSome = true → e.flight.isSome = true)
    (hattempts : ∀ e ∈ q, e.attempts ≤ 3 → (f e).attempts ≤ 3) : QueueOk (q.map f) := by
  obtain ⟨hl, ho, hc, ha⟩ := h
  refine ⟨by simpa using hl, ?_, ?_, ?_⟩
  · refine List.pairwise_map.2 (ho.imp fun {a b} hab => ?_)
    rw [(hframe a).1, (hframe b).1]
    refine ⟨?_, hab.2⟩
    rw [precedes_congr (x := f a) (x' := a) (y := f b) (y' := b) (by rw [(hframe a).1]; exact ⟨rfl, rfl⟩)
      (by rw [(hframe b).1]; exact ⟨rfl, rfl⟩) (hframe a).2 (hframe b).2]
    exact hab.1
  · rw [List.countP_map]
    exact (List.countP_mono_left fun e _ he => hflight e he).trans hc
  · intro e he
    obtain ⟨x, hx, rfl⟩ := List.mem_map.1 he
    exact hattempts x hx (ha x hx)

/-- With no attempt in flight, one can start at the head (R3). -/
theorem queueOk_start {q : List QEntry} (h : QueueOk q) (hn : ∀ e ∈ q, e.flight = none) :
    QueueOk (q.modifyHead QEntry.start) := by
  cases q with
  | nil => exact h
  | cons x q =>
    obtain ⟨hl, ho, -, ha⟩ := h
    obtain ⟨hx, hq⟩ := List.pairwise_cons.1 ho
    have hzero : q.countP (fun e => e.flight.isSome) = 0 := by
      rw [List.countP_eq_zero]
      intro e he
      simp [hn e (List.mem_cons_of_mem _ he)]
    refine ⟨hl, List.pairwise_cons.2 ⟨hx, hq⟩, ?_, ?_⟩
    · show (x.start :: q).countP _ ≤ 1
      rw [List.countP_cons, hzero]
      split <;> omega
    · intro e he
      rcases List.mem_cons.1 he with rfl | he
      · exact ha x List.mem_cons_self
      · exact ha e (List.mem_cons_of_mem _ he)

/-- The entry that completes leaves the queue, or stays with a count of 0 where it was replaced meanwhile (R5, R9). -/
theorem queueOk_complete {q : List QEntry} (h : QueueOk q) : QueueOk (q.filterMap QEntry.afterSuccess) := by
  have hkeep : ∀ {e x : QEntry}, e.afterSuccess = some x →
      x.frame = e.frame ∧ x.moment = e.moment ∧ (x.attempts ≤ e.attempts) ∧ x.flight = none := by
    intro e x hx
    unfold QEntry.afterSuccess at hx
    split at hx
    · rename_i hf
      cases hx
      exact ⟨rfl, rfl, Nat.le_refl _, hf⟩
    · split at hx
      · cases hx
        exact ⟨rfl, rfl, Nat.zero_le _, rfl⟩
      · cases hx
  obtain ⟨hl, ho, -, ha⟩ := h
  refine ⟨(List.length_filterMap_le _ _).trans hl, ?_, ?_, ?_⟩
  · refine List.pairwise_filterMap.2 (ho.imp fun {a b} hab x hx y hy => ?_)
    obtain ⟨fx, mx, -⟩ := hkeep hx
    obtain ⟨fy, my, -⟩ := hkeep hy
    rw [fx, fy]
    refine ⟨?_, hab.2⟩
    rw [precedes_congr (x := x) (x' := a) (y := y) (y' := b) (by rw [fx]; exact ⟨rfl, rfl⟩) (by rw [fy]; exact ⟨rfl, rfl⟩) mx my]
    exact hab.1
  · refine (Nat.le_of_eq (List.countP_eq_zero.2 fun x hx => ?_)).trans (Nat.zero_le 1)
    obtain ⟨e, -, he⟩ := List.mem_filterMap.1 hx
    simp [(hkeep he).2.2.2]
  · intro x hx
    obtain ⟨e, hem, he⟩ := List.mem_filterMap.1 hx
    exact (hkeep he).2.2.1.trans (ha e hem)

theorem inFlight_none {s : State} (h : s.inFlight = none) : ∀ e ∈ s.li.queue, e.flight = none :=
  List.findSome?_eq_none_iff.1 h

/-! ### The acts of the line interface -/

/-- In MUTE the queue is empty, so a change of what is in it alone keeps the invariant where it keeps the queue's. -/
theorem lineOk_queue {s : State} (h : LineOk s) {q : List QEntry} (hq : QueueOk s.li.queue → QueueOk q)
    (hempty : s.li.queue = [] → q = []) (ack : Bool) (txqLost : Bool) (due : Bool) :
    LineOk { s with li.queue := q, li.ack := ack, li.txqLost := txqLost, cl.resetDue := due } := by
  obtain ⟨ho, hd, hg, hm⟩ := h
  exact ⟨hq ho, hd, hg, fun hl => ⟨hempty (hm hl).1, (hm hl).2⟩⟩

theorem attemptStart_lineOk {s : State} (h : LineOk s) : LineOk (onAttemptStart s) := by
  unfold onAttemptStart
  split
  · rename_i hc
    simp only [canAttempt, Bool.and_eq_true, Option.isNone_iff_eq_none] at hc
    exact lineOk_queue h (fun hq => queueOk_start hq (inFlight_none hc.2)) (fun he => by rw [he]; rfl) s.li.ack s.li.txqLost
      s.cl.resetDue
  · exact h

theorem lostArbitration_lineOk {s : State} (h : LineOk s) : LineOk (onLostArbitration s) := by
  unfold onLostArbitration
  split
  · refine lineOk_queue h (fun hq => queueOk_map QEntry.yield hq (fun _ => ⟨rfl, rfl⟩) ?_ fun _ _ ha => ha)
      (fun he => by rw [he]; rfl) s.li.ack s.li.txqLost s.cl.resetDue
    intro e he
    cases he
  · exact h

theorem enterMute_lineOk (s : State) : LineOk s.enterMute :=
  ⟨⟨Nat.zero_le _, List.Pairwise.nil, Nat.zero_le _, fun _ he => by cases he⟩, Nat.zero_le _, Nat.zero_le _,
    fun _ => ⟨rfl, rfl, Nat.zero_lt_succ 31⟩⟩

theorem attemptFailed_lineOk {s : State} (h : LineOk s) : LineOk (onAttemptFailed s) := by
  unfold onAttemptFailed
  split
  · rename_i hf
    have hactive : s.li.line ≠ .mute := by
      intro hl
      obtain ⟨e, he⟩ := Option.isSome_iff_exists.1 hf
      have hnil : s.inFlight = none := by rw [State.inFlight, (h.2.2.2 hl).1]; rfl
      rw [hnil] at he
      cases he
    split
    · dsimp only
      split
      · exact enterMute_lineOk _
      · rename_i hd
        obtain ⟨hq, -, hg, -⟩ := h
        exact ⟨queueOk_sublist hq List.filter_sublist, by dsimp only at hd ⊢; omega, hg, fun hl => absurd hl hactive⟩
    · rename_i hnone
      refine lineOk_queue h (fun hq => queueOk_map QEntry.fail hq ?_ ?_ ?_) (fun he => by rw [he]; rfl) false s.li.txqLost
        s.cl.resetDue
      · intro e
        unfold QEntry.fail
        split <;> exact ⟨rfl, rfl⟩
      · intro e he
        unfold QEntry.fail at he
        split at he
        · cases he
        · exact he
      · intro e he ha
        have hn : ¬e.fourth = true := fun hx => hnone (List.any_eq_true.2 ⟨e, he, hx⟩)
        unfold QEntry.fail
        split
        · rename_i hs
          simp only [QEntry.fourth, hs, Bool.true_and, decide_eq_true_eq] at hn
          dsimp only
          omega
        · exact ha
  · exact h

theorem frameBad_lineOk {s : State} (levels : List Bool) (h : LineOk s) : LineOk (onFrameBad levels s) := by
  unfold onFrameBad
  split
  · obtain ⟨hq, hd, hg, hm⟩ := h
    refine ⟨hq, hd, ?_, fun hl => ⟨(hm hl).1, (hm hl).2.1, ?_⟩⟩
    · dsimp only
      split <;> omega
    · dsimp only at hl ⊢
      rw [if_pos hl]
      decide
  · exact h

theorem complete_lineOk {s : State} (h : LineOk s) : LineOk s.complete := by
  obtain ⟨hq, -, hg, hm⟩ := h
  refine ⟨queueOk_complete hq, Nat.zero_le _, hg, fun hl => ⟨?_, rfl, (hm hl).2.2⟩⟩
  show s.li.queue.filterMap QEntry.afterSuccess = []
  rw [(hm hl).1]
  rfl

theorem lineAct_keeps {s t : State} (h : LineAct s t) (hs : LineOk s) : LineOk t := by
  cases h with
  | start => exact attemptStart_lineOk hs
  | lost => exact lostArbitration_lineOk hs
  | failed => exact attemptFailed_lineOk hs
  | bad levels => exact frameBad_lineOk levels hs
  | complete => exact complete_lineOk hs
  | queue f restart => exact enqueueFor_lineOk s f restart hs
  | count _ mute h =>
    obtain ⟨hq, hd, hg, hm⟩ := hs
    have := (hm mute).2.2
    exact ⟨hq, hd, by dsimp only; omega, fun hl => ⟨(hm hl).1, (hm hl).2.1, by dsimp only; omega⟩⟩
  | leave _ mute =>
    refine enqueue_lineOk _ _ ?_
    exact ⟨hs.1, Nat.zero_le _, Nat.le_refl _, fun hl => by cases hl⟩

/-! ### Every act, every step -/

theorem lineOk_of_same {s t : State} (h : t.li = s.li) (hs : LineOk s) : LineOk t := by
  unfold LineOk
  rw [h]
  exact hs

theorem alarmAct_li {s t : State} (h : AlarmAct s t) : t.li = s.li := by
  cases h with
  | sample events => unfold State.raiseLine; split <;> rfl
  | ack points => unfold State.ackLine; split <;> [rfl; split <;> rfl]
  | gap => unfold onGapTimerExpiry; split <;> rfl

theorem act_keeps (s t : State) (h : Act s t) (hs : LineOk s) : LineOk t := by
  cases h with
  | mild h =>
    unfold LineOk
    rw [h.queue, h.line, h.discards, h.good]
    exact hs
  | line h => exact lineAct_keeps h hs
  | chan h => exact lineOk_of_same (chanAct_within h).same.1 hs
  | table h => exact lineOk_of_same (tableAct_within h).same.1 hs
  | alarm h => exact lineOk_of_same (alarmAct_li h) hs
  | station h =>
    cases h with
    | conflict =>
      rw [enterConflict_eq]
      obtain ⟨-, hd, hg, hm⟩ := hs
      exact ⟨⟨Nat.zero_le _, List.Pairwise.nil, Nat.zero_le _, fun _ he => by cases he⟩, hd, hg,
        fun hl => ⟨rfl, (hm hl).2⟩⟩
    | unconfigured => exact hs
    | joining img => exact hs
    | operating => exact hs
    | run => exact hs
    | stop => exact lineOk_of_same (by rw [setStopped_eq]) hs
    | reset =>
      exact ⟨⟨Nat.zero_le _, List.Pairwise.nil, Nat.zero_le _, fun _ he => by cases he⟩, Nat.zero_le _, Nat.zero_le _,
        fun hl => by cases hl⟩

theorem beginLoading_lineOk {s : State} (hs : LineOk s) : LineOk s.beginLoading := by
  unfold State.beginLoading
  split
  · unfold State.enterUnconfigured
    dsimp only
    split
    · refine enqueue_lineOk _ _ ?_
      exact hs
    · exact hs
  · exact hs

/-- Settles O55: by what each act of an event does to the line interface. -/
theorem stepKeepsTheLine : Obligations.StepKeepsTheLine := by
  intro s t hs h
  refine act_step_keeps act_keeps (fun _ _ _ hu => ?_) (fun u _ _ _ _ hu => beginLoading_lineOk ?_) hs h
  · exact hu
  · exact hu

end Sys2Proof.Proofs.LineInvariant
end

section
/-! PROOF. Every step keeps values and tables in their ranges. -/

namespace Sys2Proof.Proofs.Ranges

open Sys2Proof Sys2Proof.Machine Sys2Proof.Proofs.Event

-- Proofs are elaborated in order: in the joined text the parallel ones would hold more threads at once than the memory limit allows.
set_option Elab.async false

/-! ### Blocks that only mild changes, an entry to CONFLICT and a reset reach -/

/-- What the acts leave in place outside the line interface, the tracker's table and totals, the channels, the alarm line, the
station and the process state, unless they are mild or a reset. -/
theorem act_blocks {s t : State} (h : Act s t) :
    Mild s t ∨ t = s.blockReset ∨
      (t.hl = s.hl ∧ t.bu = s.bu ∧ t.lu = s.lu ∧ t.xu = s.xu ∧ t.tt.speed = s.tt.speed ∧ t.tt.nextId = s.tt.nextId) := by
  cases h with
  | mild h => exact .inl h
  | line h =>
    refine .inr (.inr ?_)
    cases h with
    | start => unfold onAttemptStart; split <;> exact ⟨rfl, rfl, rfl, rfl, rfl, rfl⟩
    | lost => unfold onLostArbitration; split <;> exact ⟨rfl, rfl, rfl, rfl, rfl, rfl⟩
    | failed =>
      unfold onAttemptFailed
      dsimp only
      repeat' split
      all_goals exact ⟨rfl, rfl, rfl, rfl, rfl, rfl⟩
    | bad levels => unfold onFrameBad; split <;> exact ⟨rfl, rfl, rfl, rfl, rfl, rfl⟩
    | complete => exact ⟨rfl, rfl, rfl, rfl, rfl, rfl⟩
    | queue f restart =>
      have h := (enqueueFor_within s f restart).same
      simp only [h, and_self]
    | count _ mute h => exact ⟨rfl, rfl, rfl, rfl, rfl, rfl⟩
    | leave _ mute =>
      have h := (enqueueJoin_within ({ s with li.good := 32, li.line := .active, li.discards := 0 } : State)).same
      unfold State.leaveMute
      simp only [h, and_self]
  | chan h =>
    have h := (chanAct_within h).same
    simp only [h, and_self, or_true]
  | table h =>
    have h := (tableAct_within h).same
    simp only [h, and_self, or_true]
  | alarm h =>
    refine .inr (.inr ?_)
    cases h with
    | sample events => unfold State.raiseLine; split <;> exact ⟨rfl, rfl, rfl, rfl, rfl, rfl⟩
    | ack points =>
      unfold State.ackLine
      repeat' split
      all_goals exact ⟨rfl, rfl, rfl, rfl, rfl, rfl⟩
    | gap => unfold onGapTimerExpiry; split <;> exact ⟨rfl, rfl, rfl, rfl, rfl, rfl⟩
  | station h =>
    cases h with
    | conflict => rw [enterConflict_eq]; exact .inr (.inr ⟨rfl, rfl, rfl, rfl, rfl, rfl⟩)
    | unconfigured => exact .inr (.inr ⟨rfl, rfl, rfl, rfl, rfl, rfl⟩)
    | joining img => exact .inr (.inr ⟨rfl, rfl, rfl, rfl, rfl, rfl⟩)
    | operating => exact .inr (.inr ⟨rfl, rfl, rfl, rfl, rfl, rfl⟩)
    | run => exact .inr (.inr ⟨rfl, rfl, rfl, rfl, rfl, rfl⟩)
    | stop => rw [setStopped_eq]; exact .inr (.inr ⟨rfl, rfl, rfl, rfl, rfl, rfl⟩)
    | reset => exact .inr (.inl rfl)

theorem loopsOk_keeps (s t : State) (h : Act s t) (hs : LoopsOk s) : LoopsOk t := by
  obtain h | rfl | ⟨hhl, -⟩ := act_blocks h
  · exact h.loops hs
  · exact (by decide : ∀ i : LoopIx, LoopOk HeatLoops.reset.loops[i])
  · exact fun i => hhl ▸ hs i

theorem demandsOk_keeps (s t : State) (h : Act s t) (hs : DemandsOk s) : DemandsOk t := by
  obtain h | rfl | ⟨-, hbu, -⟩ := act_blocks h
  · exact h.demands hs
  · exact ⟨Nat.zero_le _, List.Pairwise.nil, fun _ he => by cases he⟩
  · unfold DemandsOk
    rw [hbu]
    exact hs

theorem unitsOk_keeps (s t : State) (h : Act s t) (hs : UnitsOk s) : UnitsOk t := by
  obtain h | rfl | ⟨-, -, hlu, hxu, hspeed, hid⟩ := act_blocks h
  · exact h.units hs
  · exact (by decide : UnitsOk State.reset)
  · unfold UnitsOk
    rw [hlu, hxu, hspeed, hid]
    exact hs

/-! ### The counters -/

/-- The pulse counts of a channel (R60). -/
abbrev PulsesOk (c : Channel) : Prop := c.pulses ≤ 65535 ∧ ∀ x ∈ c.saved, x.pulses ≤ 65535

theorem pulsesOk_of_same {c d : Channel} (h : PulsesOk c) (hp : d.pulses = c.pulses) (hs : d.saved = c.saved) : PulsesOk d := by
  unfold PulsesOk
  rw [hp, hs]
  exact h

/-- A channel that no longer holds a context. -/
theorem pulsesOk_unsaved {c : Channel} {n : Nat} (hn : n ≤ 65535) (hp : c.pulses = n) (hs : c.saved = none) : PulsesOk c :=
  ⟨hp ▸ hn, fun x hx => by rw [hs] at hx; cases hx⟩

theorem setChan_countersOk {s : State} (k : Chan) {c : Channel} (h : CountersOk s) (hc : PulsesOk c) :
    CountersOk (s.setChan k c) := by
  refine ⟨h.1, h.2.1, fun j => ?_⟩
  by_cases hj : j = k
  · subst hj
    rw [setChan_self]
    exact hc
  · rw [setChan_other s hj]
    exact h.2.2 j

theorem incr_le {t : Total} (h : t.value ≤ 99999999) : t.incr.value ≤ 99999999 := by
  unfold Total.incr
  split
  · exact Nat.zero_le _
  · dsimp only
    omega

theorem countTotal_countersOk {s : State} (i : Fin 5) (h : CountersOk s) : CountersOk (s.countTotal i) := by
  refine ⟨fun j => ?_, h.2⟩
  rw [countTotal_tt]
  dsimp only
  by_cases hj : i = j
  · subst hj
    simpa using incr_le (h.1 i)
  · have hv : i.val ≠ j.val := fun e => hj (Fin.ext e)
    simpa [hv] using h.1 j

theorem countPulse_countersOk {s : State} (k : Chan) (h : CountersOk s) : CountersOk (s.countPulse k) :=
  countTotal_countersOk _ (setChan_countersOk k h ⟨Nat.min_le_left _ _, (h.2.2 k).2⟩)

theorem enterOn_countersOk {s : State} (k : Chan) (h : CountersOk s) : CountersOk (s.enterOn k) :=
  setChan_countersOk k h (h.2.2 k)

theorem synchronize_countersOk {s : State} (k : Chan) (h : CountersOk s) : CountersOk (s.synchronize k) := by
  have ht : CountersOk (s.setChan k { s.ac[k] with pulses := 0, blockedMark := false }) :=
    setChan_countersOk k h ⟨Nat.zero_le _, (h.2.2 k).2⟩
  unfold State.synchronize
  dsimp only
  split
  · exact enterOn_countersOk k ht
  · exact setChan_countersOk k ht (ht.2.2 k)

theorem enterArmed_countersOk {s : State} (k : Chan) (h : CountersOk s) : CountersOk (s.enterArmed k) := by
  have ht : CountersOk (s.setChan k { s.ac[k] with st := .armed, timer := none, saved := none }) :=
    setChan_countersOk k h (pulsesOk_unsaved (h.2.2 k).1 rfl rfl)
  unfold State.enterArmed
  dsimp only
  split
  · exact synchronize_countersOk k ht
  · split
    · exact synchronize_countersOk k ht
    · exact ht
  · exact ht
  · exact ht

theorem terminate_countersOk {s : State} (k : Chan) (c : Cause) (st : ChanState) (h : CountersOk s) :
    CountersOk (s.terminate k c st) := by
  unfold State.terminate
  dsimp only
  split
  · have ht := countPulse_countersOk k h
    exact setChan_countersOk k ht (pulsesOk_unsaved (ht.2.2 k).1 rfl rfl)
  · exact setChan_countersOk k h (pulsesOk_unsaved (h.2.2 k).1 rfl rfl)

theorem endRun_countersOk {s : State} (k : Chan) (c : Cause) (h : CountersOk s) : CountersOk (s.endRun k c) := by
  have ht := terminate_countersOk k c .idle h
  unfold State.endRun
  dsimp only
  split
  · exact enterArmed_countersOk k ht
  · exact ht

theorem enterBlocked_countersOk {s : State} (k : Chan) (h : CountersOk s) : CountersOk (s.enterBlocked k) := by
  have ht := terminate_countersOk k .permit .blocked h
  exact setChan_countersOk k ht (ht.2.2 k)

theorem pulseEnds_countersOk {s : State} (k : Chan) (h : CountersOk s) : CountersOk (s.pulseEnds k) := by
  have ht := countPulse_countersOk k h
  unfold State.pulseEnds
  dsimp only
  split
  · exact endRun_countersOk k _ ht
  · split
    · exact endRun_countersOk k _ ht
    · exact setChan_countersOk k ht (ht.2.2 k)

theorem restore_countersOk {s : State} (k : Chan) (c : Saved) (h : CountersOk s) (hc : c.pulses ≤ 65535) :
    CountersOk (s.restore k c) := by
  have ht : CountersOk (s.setChan k { s.ac[k] with st := c.st, timer := c.left, pulses := c.pulses, saved := none }) :=
    setChan_countersOk k h (pulsesOk_unsaved hc rfl rfl)
  unfold State.restore
  dsimp only
  split
  · exact enterArmed_countersOk k ht
  · split
    · split
      · exact pulseEnds_countersOk k (ht : CountersOk (State.markPresent _ k))
      · exact pulseEnds_countersOk k ht
    · split
      · exact ht
      · exact ht

theorem chanAct_countersOk {s t : State} (h : ChanAct s t) (hs : CountersOk s) : CountersOk t := by
  cases h with
  | halt k =>
    unfold State.haltChan
    split
    · exact hs
    · exact hs
    · split
      · exact setChan_countersOk k hs (hs.2.2 k)
      · exact terminate_countersOk k _ _ hs
    · exact terminate_countersOk k _ _ hs
  | save k =>
    have hsave : CountersOk (s.setChan k { s.ac[k] with st := .held, timer := none, saved := some s.ac[k].context }) :=
      setChan_countersOk k hs ⟨(hs.2.2 k).1, fun x hx => by cases hx; exact (hs.2.2 k).1⟩
    unfold haltSave
    split
    · exact hs
    · split
      · exact hsave
      · exact hsave
      · exact hsave
      · exact hsave
      · exact hs
  | start permit k =>
    unfold State.startChan
    split
    · exact hs
    · split
      · exact hs
      · split
        · exact enterArmed_countersOk k hs
        · exact enterBlocked_countersOk k hs
  | resume permit k =>
    unfold State.continueHeld
    split
    · exact enterBlocked_countersOk k hs
    · split
      · exact endRun_countersOk k _ hs
      · refine restore_countersOk k _ hs ?_
        cases hsv : s.ac[k].saved with
        | none => exact (hs.2.2 k).1
        | some x => exact (hs.2.2 k).2 x hsv
  | enterOn k => exact enterOn_countersOk k hs
  | synchronize k => exact synchronize_countersOk k hs
  | endRun k cause => exact endRun_countersOk k cause hs
  | pulseEnds k => exact pulseEnds_countersOk k hs
  | halted k =>
    have ht := countPulse_countersOk k hs
    unfold onHaltingExpiry
    dsimp only
    split
    · exact setChan_countersOk k ht (ht.2.2 k)
    · exact hs
  | permitLost k =>
    unfold State.permitLost
    split
    · exact enterBlocked_countersOk k hs
    · exact enterBlocked_countersOk k hs
    · exact enterBlocked_countersOk k hs
    · exact enterBlocked_countersOk k hs
    · exact setChan_countersOk k hs (hs.2.2 k)
    · exact hs
  | permitReturns k =>
    unfold State.permitReturns
    split
    · exact enterArmed_countersOk k (hs : CountersOk (s.markPresent k))
    · exact hs

/-! ### The counters under an evaluation of the table -/

theorem kept_countersOk {s : State} (h : CountersOk s) : CountersOk (kept s) := by
  have hrep : ∀ n : Nat, (Nat.repeat Total.incr n s.tt.totals[(0 : Fin 5)]).value ≤ 99999999 := by
    intro n
    induction n with
    | zero => exact h.1 0
    | succ n ih => exact incr_le ih
  refine ⟨fun j => ?_, h.2⟩
  by_cases hj : (0 : Fin 5) = j
  · subst hj
    simpa [kept, State.removePassed] using hrep _
  · have hv : (0 : Nat) ≠ j.val := fun e => hj (Fin.ext e)
    simpa [kept, State.removePassed, hv] using h.1 j

theorem evalWindow_countersOk {s : State} (k : Chan) (h : CountersOk s) : CountersOk (s.evalWindow k) := by
  have hw : CountersOk (windowed s k (openAfter s k)) := h
  obtain e | e | e | e := evalWindow_cases s k <;> rw [e]
  · exact h
  · exact hw
  · unfold State.windowOpens
    split
    · exact synchronize_countersOk k hw
    · exact hw
  · unfold State.windowEmpty
    split
    · exact endRun_countersOk k _ hw
    · exact hw

theorem evalCounts_countersOk {s : State} (h : CountersOk s) : CountersOk s.evalCounts := h

theorem evaluate_countersOk {s : State} (h : CountersOk s) : CountersOk s.evaluate := by
  have hfold : ∀ (l : List Chan) (t : State), CountersOk t → CountersOk (l.foldl State.evalWindow t) := by
    intro l
    induction l with
    | nil => exact fun _ ht => ht
    | cons k l ih => exact fun t ht => ih _ (evalWindow_countersOk k ht)
  rw [evaluate_eq]
  exact evalCounts_countersOk (hfold allChans _ (kept_countersOk h))

theorem tableAct_countersOk {s t : State} (h : TableAct s t) (hs : CountersOk s) : CountersOk t := by
  cases h with
  | correct i lead f =>
    unfold State.correct
    exact evaluate_countersOk hs
  | create r =>
    unfold State.create
    split
    · exact hs
    · dsimp only
      split
      · exact hs
      · split
        · exact hs
        · exact evaluate_countersOk hs
  | remove id =>
    unfold State.removeId
    split
    · exact evaluate_countersOk hs
    · exact hs
  | travel e => exact evaluate_countersOk hs

theorem foldl_stopChan_countersOk : ∀ (l : List Chan) {s : State}, CountersOk s → CountersOk (l.foldl State.stopChan s)
  | [], _, h => h
  | k :: l, s, h => by
    refine foldl_stopChan_countersOk l (s := s.stopChan k) ?_
    unfold State.stopChan
    split
    · exact h
    · exact terminate_countersOk k _ _ h

theorem setStopped_countersOk {s : State} (h : CountersOk s) : CountersOk s.setStopped := by
  have ht : CountersOk s.stopChans := by
    unfold State.stopChans
    exact foldl_stopChan_countersOk allChans h
  unfold State.setStopped
  generalize s.stopChans = t at ht
  exact ht

theorem enterConflict_countersOk {s : State} (h : CountersOk s) : CountersOk s.enterConflict := by
  have ht := setStopped_countersOk h
  unfold State.enterConflict
  generalize s.setStopped = t at ht
  exact ht

theorem countersOk_keeps (s t : State) (h : Act s t) (hs : CountersOk s) : CountersOk t := by
  cases h with
  | mild h =>
    refine ⟨h.totals hs.1, h.encPulses hs.2.1, fun k => ?_⟩
    exact pulsesOk_of_same (hs.2.2 k) (h.chans k).2.1 (h.chans k).2.2
  | line h =>
    rw [lineAct_within h]
    exact hs
  | chan h => exact chanAct_countersOk h hs
  | table h => exact tableAct_countersOk h hs
  | alarm h =>
    cases h with
    | sample events => unfold State.raiseLine; split <;> exact hs
    | ack points =>
      unfold State.ackLine
      repeat' split
      all_goals exact hs
    | gap => unfold onGapTimerExpiry; split <;> exact hs
  | station h =>
    cases h with
    | conflict => exact enterConflict_countersOk hs
    | unconfigured => exact hs
    | joining img => exact hs
    | operating => exact hs
    | run => exact hs
    | stop => exact setStopped_countersOk hs
    | reset => exact (by decide : CountersOk State.reset)

/-! ### Every step -/

/-- Settles O59: by what each act of an event does to each of the blocks. -/
theorem stepKeepsTheRanges : Obligations.StepKeepsTheRanges := by
  intro s t h
  refine ⟨fun hs => ?_, fun hs => ?_, fun hs => ?_, fun hs => ?_⟩
  · refine act_step_keeps loopsOk_keeps (fun _ _ _ hu => hu) (fun u straps power pin _ hu => ?_) hs h
    rw [beginLoading_within]
    exact hu
  · refine act_step_keeps demandsOk_keeps (fun _ _ _ hu => hu) (fun u straps power pin _ hu => ?_) hs h
    rw [beginLoading_within]
    exact hu
  · refine act_step_keeps countersOk_keeps (fun _ _ _ hu => hu) (fun u straps power pin _ hu => ?_) hs h
    rw [beginLoading_within]
    exact hu
  · refine act_step_keeps unitsOk_keeps (fun _ _ _ hu => hu) (fun u straps power pin _ hu => ?_) hs h
    rw [beginLoading_within]
    exact hu

end Sys2Proof.Proofs.Ranges
end

section
/-! PROOF. Every step keeps the station's invariant: a part held in reset rests at its values after reset (R176), and OPERATING is
left for CONFLICT or a reset alone (R185). -/

namespace Sys2Proof.Proofs.Station

open Sys2Proof Sys2Proof.Machine Sys2Proof.Proofs.Event

-- Proofs are elaborated in order: in the joined text the parallel ones would hold more threads at once than the memory limit allows.
set_option Elab.async false

/-! ### The station states -/

/-- What the station's invariant says of the station states (R185). -/
abbrev Stated (s : State) : Prop :=
  (s.cl.station = .operating → s.cl.started = true) ∧
    (s.cl.started = true → s.cl.station = .operating ∨ s.cl.station = .conflict)

/-- An act leaves the station state and the held causes alone, or is one of the station's own. -/
theorem act_station {s t : State} (h : Act s t) :
    StationAct s t ∨ (t.cl.station = s.cl.station ∧ t.cl.started = s.cl.started ∧ t.cl.image = s.cl.image ∧
      t.cl.heldPower = s.cl.heldPower ∧ t.cl.heldPin = s.cl.heldPin) := by
  cases h with
  | mild h => exact .inr ⟨h.station, h.started, h.image, h.heldPower, h.heldPin⟩
  | line h => rw [lineAct_within h]; exact .inr ⟨rfl, rfl, rfl, rfl, rfl⟩
  | chan h =>
    have h := (chanAct_within h).same
    simp only [h, and_self, or_true]
  | table h =>
    have h := (tableAct_within h).same
    simp only [h, and_self, or_true]
  | alarm h =>
    refine .inr ?_
    cases h with
    | sample events => unfold State.raiseLine; split <;> exact ⟨rfl, rfl, rfl, rfl, rfl⟩
    | ack points =>
      unfold State.ackLine
      repeat' split
      all_goals exact ⟨rfl, rfl, rfl, rfl, rfl⟩
    | gap => unfold onGapTimerExpiry; split <;> exact ⟨rfl, rfl, rfl, rfl, rfl⟩
  | station h => exact .inl h

theorem act_keeps_stated (s t : State) (h : Act s t) (hs : Stated s) : Stated t := by
  obtain h | ⟨hst, hgo, -⟩ := act_station h
  · cases h with
    | conflict =>
      rw [enterConflict_eq]
      exact ⟨fun he => (by cases he), fun _ => .inr rfl⟩
    | unconfigured _ hl => exact ⟨fun he => (by cases he), fun he => absurd (hs.2 he) (by simp [hl])⟩
    | joining img _ hl => exact ⟨fun he => (by cases he), fun he => absurd (hs.2 he) (by simp [hl])⟩
    | operating => exact ⟨fun _ => rfl, fun _ => .inl rfl⟩
    | run => exact hs
    | stop => rw [setStopped_eq]; exact hs
    | reset => exact ⟨fun he => (by cases he), fun he => (by cases he)⟩
  · unfold Stated
    rw [hst, hgo]
    exact hs

theorem act_keeps_held {power pin : Bool} (s t : State) (h : Act s t)
    (hs : s.cl.heldPower = power ∧ s.cl.heldPin = pin) : t.cl.heldPower = power ∧ t.cl.heldPin = pin := by
  obtain h | ⟨-, -, -, hpower, hpin⟩ := act_station h
  · cases h with
    | conflict => rw [enterConflict_eq]; exact hs
    | unconfigured => exact hs
    | joining img => exact hs
    | operating => exact hs
    | run => exact hs
    | stop => rw [setStopped_eq]; exact hs
    | reset => exact hs
  · rw [hpower, hpin]
    exact hs

theorem acts_held {s t : State} (h : Acts s t) : t.held = s.held := by
  obtain ⟨hpower, hpin⟩ := h.keeps act_keeps_held ⟨rfl, rfl⟩
  unfold State.held
  rw [hpower, hpin]

/-! ### A part held in reset -/

/-- The blocks of a part that rests at its values after reset (R176). -/
structure Rests (s : State) : Prop where
  li : s.li = .reset
  tt : s.tt = .reset
  ac : s.ac = Vector.replicate 4 Channel.reset
  hl : s.hl = .reset
  bu : s.bu = .reset
  lu : s.lu = .reset
  xu : s.xu = .reset
  mb : s.mb = .reset
  ib : s.ib = .reset
  cl : s.cl = { Loader.reset with heldPower := s.cl.heldPower, heldPin := s.cl.heldPin }

theorem rests_iff (s : State) : Rests s ↔ s.blockReset = s := by
  constructor
  · rintro ⟨hli, htt, hac, hhl, hbu, hlu, hxu, hmb, hib, hcl⟩
    rcases s with ⟨li, tt, ac, hl, bu, lu, xu, mb, ib, cl, pins, now, free, pending⟩
    dsimp only at *
    subst hli htt hac hhl hbu hlu hxu hmb hib
    unfold State.blockReset
    rw [hcl]
    rfl
  · intro h
    rw [← h]
    exact ⟨rfl, rfl, rfl, rfl, rfl, rfl, rfl, rfl, rfl, rfl⟩

section
variable {s : State} (h : Rests s)
include h

theorem Rests.station : s.cl.station = .loading := by rw [h.cl]; rfl

theorem Rests.active : s.active = false := by simp [State.active, State.operating, h.station]

theorem Rests.operating : s.operating = false := by simp [State.operating, h.station]

theorem Rests.receiving : s.receiving = false := by simp [State.receiving, h.li, LineInterface.reset]

theorem Rests.inFlight : s.inFlight = none := by rw [State.inFlight, h.li]; rfl

theorem Rests.ac_reset (k : Chan) : s.ac[k] = Channel.reset := by simp [h.ac]

theorem Rests.readTimer : s.cl.readTimer = none := by rw [h.cl]; rfl
theorem Rests.retryTimer : s.cl.retryTimer = none := by rw [h.cl]; rfl
theorem Rests.restartPending : s.cl.restartPending = false := by rw [h.cl]; rfl
theorem Rests.resetDue : s.cl.resetDue = false := by rw [h.cl]; rfl
theorem Rests.image : s.cl.image = .blank := by rw [h.cl]; rfl

theorem Rests.command (c : CmdHeader) (code : Byte) (act : State → Answer) : s.command c code act = s := by
  simp [State.command, h.receiving]

theorem Rests.takeFrom (k : Kind) (source : Addr) (act : State → State) : s.takeFrom k source act = s := by
  simp [State.takeFrom, h.receiving]

theorem Rests.takeOwn (k : Kind) (act : State → Addr → Frame → State) : s.takeOwn k act = s := by
  simp [State.takeOwn, h.inFlight]

/-- Pins alone may change of a part held in reset; the model's own fields too. -/
theorem Rests.withPins (pins : Pins) : Rests { s with pins := pins } :=
  ⟨h.li, h.tt, h.ac, h.hl, h.bu, h.lu, h.xu, h.mb, h.ib, h.cl⟩

theorem Rests.inPhase (k : Chan) (st : ChanState) : s.inPhase k st = false := by
  simp [State.inPhase, h.ac_reset, Channel.reset]

theorem Rests.flightKind : s.flightKind = none := by rw [State.flightKind, h.inFlight]; rfl

end

/-- A part held in reset rests on: no command but RESET and RESET_RELEASE has an effect beyond the levels of its pins. -/
theorem effect_rests {c : Instr} {s : State} (h : Rests s) (hheld : s.held = true) (hc : movesHeld c = false) :
    Rests (effect c s) := by
  have stays : ∀ {t : State}, t = s → Rests t := fun e => e ▸ h
  cases c with
  | attemptStart => exact stays (by simp [effect, onAttemptStart, canAttempt, h.receiving])
  | lostArbitration => exact stays (by simp [effect, onLostArbitration, h.inFlight])
  | attemptFailed => exact stays (by simp [effect, onAttemptFailed, h.inFlight])
  | frameBad levels => exact stays (by simp [effect, onFrameBad, h.receiving])
  | frameTakenUndelivered rx =>
    cases rx with
    | own => exact stays (by simp [effect, onFrameTakenUndelivered, ownUndelivered, h.flightKind])
    | heard source f => exact stays (by simp [effect, onFrameTakenUndelivered, h.receiving])
  | replyTaken rx =>
    cases rx with
    | own => exact stays (by simp [effect, onReplyTaken, h.flightKind])
    | heard source u => exact stays (by simp [effect, onReplyTaken, h.receiving])
  | commandNotAddressed h' => exact stays (by simp [effect, onCommandNotAddressed, h.receiving])
  | unknownCommand source payload => exact stays (by simp [effect, onUnknownCommand, h.receiving])
  | restart h' => exact stays (by simp [effect, onRestart, h.receiving])
  | restartTimerExpiry => exact stays (by simp [effect, onRestartTimerExpiry, h.restartPending])
  | transitRead h' index part => exact stays (h.command _ _ _)
  | totalsRead h' counter => exact stays (h.command _ _ _)
  | totalsClear h' counters => exact stays (h.command _ _ _)
  | chStart h' chans => exact stays (h.command _ _ _)
  | chHalt h' chans => exact stays (h.command _ _ _)
  | chHaltSave h' chans => exact stays (h.command _ _ _)
  | chContinue h' chans => exact stays (h.command _ _ _)
  | chQuery h' chan => exact stays (h.command _ _ _)
  | loopSetpoint h' loop value => exact stays (h.command _ _ _)
  | loopEnable h' loops => exact stays (h.command _ _ _)
  | loopDisable h' loops => exact stays (h.command _ _ _)
  | levelFeedReset h' => exact stays (h.command _ _ _)
  | alarmAck h' points => exact stays (h.command _ _ _)
  | permitGrant h' grant withdraw => exact stays (h.command _ _ _)
  | permitWithdraw h' withdraw => exact stays (h.command _ _ _)
  | permitQuery h' test => exact stays (h.command _ _ _)
  | resume h' => exact stays (h.command _ _ _)
  | entryLeadingEdge tag =>
    simp only [effect, onEntryLeadingEdge, h.active, Bool.false_and, Bool.false_eq_true, if_false]
    split
    · exact h
    · exact h.withPins _
  | entryTrailingEdge =>
    simp only [effect, onEntryTrailingEdge, h.active, Bool.false_and, Bool.false_eq_true, if_false]
    split
    · exact h.withPins _
    · exact h
  | longBoardTimerExpiry => exact stays (by simp [effect, onLongBoardTimerExpiry, h.tt, Tracker.reset])
  | entryTaken rx =>
    cases rx with
    | own => exact stays (h.takeOwn _ _)
    | heard source c => exact stays (h.takeFrom .entry source fun t => t.entryArrives c)
  | sightLeadingEdge =>
    simp only [effect, onSightLeadingEdge, h.active, Bool.false_and, Bool.false_eq_true, if_false]
    split
    · exact h
    · exact h.withPins _
  | sightTrailingEdge =>
    simp only [effect, onSightTrailingEdge, h.active, Bool.false_and, Bool.false_eq_true, if_false]
    split
    · exact h.withPins _
    · exact h
  | ownSightTaken => exact stays (h.takeOwn _ _)
  | peerSightLeadTaken source id position measured =>
    exact stays (h.takeFrom .sight source fun t => t.peerLead id position.toNat)
  | peerSightTrailTaken source id position measured =>
    exact stays (h.takeFrom .sight source fun t => t.peerTrail id position.toNat measured.toNat)
  | encPulse => exact stays (by simp [effect, onEncPulse, h.active])
  | speedWindowExpiry => exact stays (by simp [effect, onSpeedWindowExpiry, h.tt, Tracker.reset])
  | speedTaken rx =>
    cases rx with
    | own => exact stays (h.takeOwn _ _)
    | heard source c => exact stays (h.takeFrom .speed source fun t => t.speedArrives source c)
  | staleTimerExpiry => exact stays (by simp [effect, onStaleTimerExpiry, h.tt, Tracker.reset])
  | sourceTimerExpiry => exact stays (by simp [effect, onSourceTimerExpiry, h.tt, Tracker.reset])
  | conflictTimerExpiry => exact stays (by simp [effect, onConflictTimerExpiry, h.tt, Tracker.reset])
  | trackingIntervalExpiry => exact stays (by simp [effect, onTrackingIntervalExpiry, h.active])
  | delayExpiry k => exact stays (by simp [effect, onDelayExpiry, h.inPhase])
  | onTimeExpiry k => exact stays (by simp [effect, onOnTimeExpiry, h.inPhase])
  | offPhaseExpiry k => exact stays (by simp [effect, onOffPhaseExpiry, h.inPhase])
  | haltingExpiry k => exact stays (by simp [effect, onHaltingExpiry, h.inPhase])
  | chreqAssertion k =>
    simp only [effect, onChreqAssertion, h.operating, Bool.false_and, Bool.false_eq_true, if_false]
    split
    · exact h
    · exact h.withPins _
  | chendAssertion k =>
    simp only [effect, onChendAssertion, h.operating, Bool.false_and, Bool.false_eq_true, if_false]
    split
    · exact h
    · exact h.withPins _
  | generalInputChange pin level => exact h.withPins _
  | tcConversion raw0 raw1 => exact stays (by simp [effect, onTcConversion, h.active])
  | zeroCrossing sinceLast => exact stays (by simp [effect, onZeroCrossing, h.active])
  | mainsLost => exact stays (by simp [effect, onMainsLost, h.active])
  | controlPeriodExpiry =>
    exact stays (by simp [effect, onControlPeriodExpiry, State.periodOver, State.periodsRun, h.active])
  | demandTaken rx =>
    cases rx with
    | own => exact stays (h.takeOwn _ _)
    | heard source c => exact stays (h.takeFrom .demand source fun t => t.demandArrives source c)
  | entryAgeExpiry station loop =>
    refine stays ?_
    rcases s with ⟨li, tt, ac, hl, bu, lu, xu, mb, ib, cl, pins, now, free, pending⟩
    obtain rfl : bu = .reset := h.bu
    rfl
  | refusalTimerExpiry => exact stays (by simp [effect, onRefusalTimerExpiry, h.bu, Budget.reset])
  | startTimerExpiry => exact stays (by simp [effect, onStartTimerExpiry, h.bu, Budget.reset])
  | levelSample reading => exact stays (by simp [effect, onLevelSample, h.active])
  | settleTimerExpiry => exact stays (by simp [effect, onSettleTimerExpiry, h.lu, LevelUnit.reset])
  | feedTimerExpiry => exact stays (by simp [effect, onFeedTimerExpiry, h.lu, LevelUnit.reset])
  | extractionTimerExpiry reading => exact stays (by simp [effect, onExtractionTimerExpiry, h.active])
  | monitorTimerExpiry gain0 gain1 => exact stays (by simp [effect, onMonitorTimerExpiry, h.active])
  | gapTimerExpiry => exact stays (by simp [effect, onGapTimerExpiry, h.mb, Monitor.reset])
  | statusTimerExpiry => exact stays (by simp [effect, onStatusTimerExpiry, h.operating])
  | stateTaken rx =>
    cases rx with
    | own => exact stays (h.takeOwn _ _)
    | heard source c => exact stays (h.takeFrom .state source fun t => t.stateArrives source c)
  | joinTaken rx =>
    cases rx with
    | own => exact stays (h.takeOwn _ _)
    | heard source c => exact stays (h.takeFrom .join source fun t => t.joinArrives source)
  | alarmTaken rx =>
    cases rx with
    | own => exact stays (h.takeOwn _ _)
    | heard source c => exact stays (h.takeFrom .alarm source fun t => t.alarmArrives source c)
  | silenceTimerExpiry station =>
    refine stays ?_
    rcases s with ⟨li, tt, ac, hl, bu, lu, xu, mb, ib, cl, pins, now, free, pending⟩
    obtain rfl : mb = .reset := h.mb
    rfl
  | graceTimerExpiry => exact stays (by simp [effect, onGraceTimerExpiry, h.mb, Monitor.reset])
  | triggerTimerExpiry => exact stays (by simp [effect, onTriggerTimerExpiry, h.ib, Interlock.reset])
  | widthTimerExpiry => exact stays (by simp [effect, onWidthTimerExpiry, h.ib, Interlock.reset])
  | stopTaken rx =>
    cases rx with
    | own => exact stays (h.takeOwn _ _)
    | heard source c => exact stays (h.takeFrom .stop source fun t => t.stopArrives source c)
  | reset cause => cases hc
  | resetRelease cause straps => cases hc
  | imageReadComplete bytes => exact stays (by simp [effect, onImageReadComplete, State.reading, h.readTimer])
  | imageReadFailed cause => exact stays (by simp [effect, onImageReadFailed, State.reading, h.readTimer])
  | readRetryWaitExpiry => exact stays (by simp [effect, onReadRetryWaitExpiry, h.retryTimer])
  | joinTimerExpiry raw0 raw1 level => exact stays (by simp [effect, onJoinTimerExpiry, h.station])
  | firstIdleAfterReset => exact stays (by simp [effect, onFirstIdleAfterReset, hheld])
  | requestOrEndInputRelease isEnd k =>
    cases isEnd with
    | true => exact h.withPins _
    | false => exact h.withPins _

/-! ### The readers of a part held in reset -/

theorem blocksFollow_rests {s : State} (h : Rests s) : s.blocksFollow = s := by
  have hloop : ∀ i, s.loopFollows i = s := fun i => by
    simp [State.loopFollows, State.loopRuns, h.active]
  have hfeed : s.feedFollows = s := by
    have hf : s.feedAllowed = false := by simp [State.feedAllowed, h.operating]
    have hr : s.lu.feeder = .rest := by rw [h.lu]; rfl
    simp [State.feedFollows, hr, hf]
  have hwave : s.waveFollows = s := by simp [State.waveFollows, h.active]
  have hext : s.extractionFollows = s := by simp [State.extractionFollows, h.active]
  unfold State.blocksFollow
  rw [hloop, hloop, hfeed, hwave, hext]

theorem formCells_rests {s : State} (h : Rests s) : s.formCells = s := by
  simp [State.formCells, State.cellsAct, h.station]

theorem round_rests {s : State} (h : Rests s) : s.round = s := by
  have hc : s.channelsFollow s = s := by simp [State.channelsFollow, h.operating]
  unfold State.round
  simp only [blocksFollow_rests h, formCells_rests h, hc]

theorem settle_rests {s : State} (h : Rests s) (n : Nat) : settle n s = s := by
  have hstop : s.stopFollows = s := by simp [State.stopFollows, h.active]
  cases n with
  | zero => simp only [settle, hstop, blocksFollow_rests h, formCells_rests h]
  | succ n => simp only [settle, round_rests h, hstop, ne_eq, not_true_eq_false, if_false]

theorem finish_rests {s t : State} (h : Rests t) : Rests (finish s t) := by
  have hf : finish s t = t.momentEnds := by
    simp only [finish, settle_rests h, ite_self, h.resetDue, Bool.false_eq_true, if_false]
  rw [hf]
  exact ⟨h.li, h.tt, h.ac, h.hl, h.bu, h.lu, h.xu, h.mb, h.ib, h.cl⟩

/-! ### Every step -/

theorem beginLoading_resetDue (s : State) (ha : s.cl.address = none) (h : s.cl.resetDue = false) :
    s.beginLoading.cl.resetDue = false := by
  unfold State.beginLoading
  split
  · simp only [State.enterUnconfigured, ha, Option.isSome_none, Bool.false_eq_true, if_false]
    exact h
  · exact h

/-- No reset stays due after its event (R177). -/
theorem finish_resetDue (s t : State) : (finish s t).cl.resetDue = false := by
  unfold finish
  dsimp only
  generalize (if readable s = readable t then t else settle 32 t) = r
  rw [momentEnds_cl]
  split
  · exact beginLoading_resetDue _ rfl rfl
  · rename_i h
    exact Bool.eq_false_iff.2 h

/-- A part that is held after an event rests at its values after reset, where it did before (R176). -/
theorem finish_held {c : Instr} {s : State} (h : s.held = true → Rests s) (hf : (finish s (effect c s)).held = true) :
    Rests (finish s (effect c s)) := by
  have he : (effect c s).held = true := (acts_held (finish_acts s _)).symm.trans hf
  refine finish_rests ?_
  cases hc : movesHeld c with
  | false =>
    have hs : s.held = true := (acts_held (effect_acts c s hc)).symm.trans he
    exact effect_rests (h hs) hs hc
  | true =>
    cases c with
    | reset cause => cases cause <;> exact ⟨rfl, rfl, rfl, rfl, rfl, rfl, rfl, rfl, rfl, rfl⟩
    | resetRelease cause straps =>
      have hrel : Rests s → Rests (State.release { s with pins.straps := straps } cause) := by
        rintro ⟨hli, htt, hac, hhl, hbu, hlu, hxu, hmb, hib, hcl⟩
        cases cause with
        | power => exact ⟨hli, htt, hac, hhl, hbu, hlu, hxu, hmb, hib, by simp only [State.release]; rw [hcl]⟩
        | pin => exact ⟨hli, htt, hac, hhl, hbu, hlu, hxu, hmb, hib, by simp only [State.release]; rw [hcl]⟩
      have hhold : s.holds cause = true → s.held = true := by
        cases cause with
        | power => exact fun hp => Bool.or_eq_true_iff.2 (.inl hp)
        | pin => exact fun hp => Bool.or_eq_true_iff.2 (.inr hp)
      have hbegin : ∀ t : State, t.beginLoading.held = t.held := by
        intro t
        rw [beginLoading_within]
        unfold State.beginLoading State.enterUnconfigured
        dsimp only
        split
        · split
          · have h := (enqueueJoin_within ({ t with
              cl.station := .unconfigured, cl.fault := .addressBad, cl.offending := 0, cl.readTimer := none
              cl.busTimer := none, cl.retryTimer := none, li.filter := t.cl.address, mb.alarm := .asserted } : State)).same
            unfold State.held
            simp only [h]
          · rfl
        · rfl
      simp only [effect, onResetRelease] at he ⊢
      split at he
      · rename_i hh
        rw [if_pos hh]
        split at he
        · rename_i ht
          rw [if_pos ht]
          exact hrel (h (hhold hh))
        · rename_i ht
          rw [hbegin] at he
          exact absurd he ht
      · rename_i hh
        rw [if_neg hh]
        exact h he
    | _ => cases hc

theorem idle_resetDue (s : State) : (idle s).cl.resetDue = s.cl.resetDue := by
  unfold idle
  split <;> rfl

theorem idle_rests {s : State} (h : Rests s) : Rests (idle s) := by
  unfold idle
  split
  · exact ⟨h.li, h.tt, h.ac, h.hl, h.bu, h.lu, h.xu, h.mb, h.ib, h.cl⟩
  · rcases s with ⟨li, tt, ac, hl, bu, lu, xu, mb, ib, cl, pins, now, free, pending⟩
    obtain ⟨hli, htt, hac, hhl, hbu, hlu, hxu, hmb, hib, hcl⟩ := h
    dsimp only at *
    subst hli htt hac hhl hbu hlu hxu hmb hib
    rw [hcl]
    refine ⟨rfl, rfl, ?_, rfl, rfl, rfl, rfl, rfl, rfl, ?_⟩
    · simp [State.tick, Channel.reset, tickTimer]
    · simp [State.tick, Loader.tick, Loader.reset, tickTimer]

/-- The station's invariant, and with it a property that every act keeps where the station states are in order: every step keeps
both, where the property holds of what a release begins. -/
theorem stationOk_step {P : State → Prop} (hP : ∀ s t, Act s t → Stated s → P s → P t)
    (hheld : ∀ (s : State) (power pin : Bool), P s → P { s with cl.heldPower := power, cl.heldPin := pin })
    {s t : State} (hs : StationOk s) (hp : P s) (h : step s = .next t) : StationOk t ∧ P t := by
  refine step_keeps (fun u => StationOk u ∧ P u) (fun c u hu => ?_) (fun u l hu => ?_) (fun u hu => ?_) s t ⟨hs, hp⟩ h
  · obtain ⟨⟨hrest, hop, hst, -⟩, hp⟩ := hu
    have hrest' : u.held = true → Rests u := fun hh => (rests_iff u).2 (hrest hh)
    have hkeep : ∀ a b, Act a b → Stated a ∧ P a → Stated b ∧ P b :=
      fun a b hab ha => ⟨act_keeps_stated a b hab ha.1, hP a b hab ha.1 ha.2⟩
    have heff : Stated (effect c u) ∧ P (effect c u) := by
      refine effect_keeps hkeep (fun v power pin hv => ⟨hv.1, hheld v power pin hv.2⟩) c u ⟨⟨hop, hst⟩, hp⟩ ?_
      intro straps power pin hh
      have hl := (hrest' hh).station
      have hm : Mild u { u with pins.straps := straps } := {}
      refine (beginLoading_acts
        { u with pins.straps := straps, cl.heldPower := power, cl.heldPin := pin } hl).keeps hkeep ⟨⟨hop, hst⟩, ?_⟩
      exact hheld _ power pin (hP _ _ (.mild hm) ⟨hop, hst⟩ hp)
    obtain ⟨hstated, hpf⟩ := (finish_acts u _).keeps hkeep heff
    exact ⟨⟨fun hf => (rests_iff _).1 (finish_held hrest' hf), hstated.1, hstated.2, finish_resetDue _ _⟩, hpf⟩
  · have hm : Mild u { u with pending := l } := {}
    obtain ⟨⟨hrest, hop, hst, hdue⟩, hp⟩ := hu
    refine ⟨⟨fun hh => ?_, hop, hst, hdue⟩, hP _ _ (.mild hm) ⟨hop, hst⟩ hp⟩
    obtain ⟨hli, htt, hac, hhl, hbu, hlu, hxu, hmb, hib, hcl⟩ := (rests_iff u).2 (hrest hh)
    exact (rests_iff _).1 ⟨hli, htt, hac, hhl, hbu, hlu, hxu, hmb, hib, hcl⟩
  · obtain ⟨⟨hrest, hop, hst, hdue⟩, hp⟩ := hu
    have hkeep : ∀ a b, Act a b → Stated a ∧ P a → Stated b ∧ P b :=
      fun a b hab ha => ⟨act_keeps_stated a b hab ha.1, hP a b hab ha.1 ha.2⟩
    obtain ⟨hstated, hpi⟩ := (idle_acts u).keeps hkeep ⟨⟨hop, hst⟩, hp⟩
    refine ⟨⟨fun hh => ?_, hstated.1, hstated.2, (idle_resetDue u).trans hdue⟩, hpi⟩
    have hu : u.held = true := (acts_held (idle_acts u)).symm.trans hh
    exact (rests_iff _).1 (idle_rests ((rests_iff u).2 (hrest hu)))

end Sys2Proof.Proofs.Station
end

section
/-! PROOF. Every step keeps the channels IDLE outside OPERATING and while the process state is STOPPED (R76). -/

namespace Sys2Proof.Proofs.Idle

open Sys2Proof Sys2Proof.Machine Sys2Proof.Proofs.Event Sys2Proof.Proofs.Station

-- Proofs are elaborated in order: in the joined text the parallel ones would hold more threads at once than the memory limit allows.
set_option Elab.async false

/-- A transition of the channels that begins with one not IDLE: the station is OPERATING and the process runs, and both stay. -/
theorem idle_of_awake {s t : State} (h : ByChannels s t) (hk : ∃ k : Chan, s.ac[k].st ≠ .idle) (hs : ChannelsIdle s) :
    ChannelsIdle t := by
  obtain ⟨k, hk⟩ := hk
  rw [ByChannels] at h
  rw [h]
  exact fun hstop => absurd (hs hstop k) hk

/-- Where the station is OPERATING and the process runs, no channel need be IDLE. -/
theorem idle_of_running {s t : State} (h : ByChannels s t) (hst : s.cl.station = .operating) (hp : s.ib.process ≠ .stopped) :
    ChannelsIdle t := by
  rw [ByChannels] at h
  rw [h]
  exact fun hstop => absurd hstop (not_or.2 ⟨not_not.2 hst, hp⟩)

/-- Every transition of a channel is one of a channel that is not IDLE, a start in OPERATING while the process runs, or none. -/
theorem chanAct_awake {s t : State} (h : ChanAct s t) :
    t = s ∨ (∃ k : Chan, s.ac[k].st ≠ .idle) ∨ (s.cl.station = .operating ∧ s.ib.process ≠ .stopped) := by
  have awake : ∀ {k : Chan} {st : ChanState}, s.ac[k].st = st → st ≠ .idle →
      t = s ∨ (∃ k : Chan, s.ac[k].st ≠ .idle) ∨ (s.cl.station = .operating ∧ s.ib.process ≠ .stopped) :=
    fun hst hn => .inr (.inl ⟨_, not_idle hst hn⟩)
  cases h with
  | halt k =>
    by_cases hi : s.ac[k].st = .idle
    · exact .inl (by simp only [State.haltChan, hi])
    · exact .inr (.inl ⟨k, hi⟩)
  | save k =>
    by_cases hi : s.ac[k].st = .idle
    · refine .inl ?_
      unfold haltSave
      split
      · rfl
      · simp only [hi]
    · exact .inr (.inl ⟨k, hi⟩)
  | start permit k _ ho =>
    by_cases hp : s.ib.process = .stopped
    · exact .inl (by simp only [State.startChan, hp, if_true])
    · exact .inr (.inr ⟨(State.operating_iff s).1 ho, hp⟩)
  | resume permit k _ hh => exact awake hh (by decide)
  | enterOn k _ hn => exact .inr (.inl ⟨k, hn⟩)
  | synchronize k _ hn => exact .inr (.inl ⟨k, hn⟩)
  | endRun k cause _ hn => exact .inr (.inl ⟨k, hn⟩)
  | pulseEnds k _ hn => exact .inr (.inl ⟨k, hn⟩)
  | halted k =>
    by_cases hp : s.inPhase k .halting = true
    · exact awake (inPhase_st hp) (by decide)
    · exact .inl (if_neg hp)
  | permitLost k =>
    by_cases hi : s.ac[k].st = .idle
    · exact .inl (by simp only [State.permitLost, hi])
    · exact .inr (.inl ⟨k, hi⟩)
  | permitReturns k =>
    by_cases hb : s.ac[k].st = .blocked
    · exact awake hb (by decide)
    · exact .inl (if_neg hb)

theorem chanAct_keeps {s t : State} (h : ChanAct s t) (hs : ChannelsIdle s) : ChannelsIdle t := by
  obtain rfl | hk | ⟨hst, hp⟩ := chanAct_awake h
  · exact hs
  · exact idle_of_awake (chanAct_within h) hk hs
  · exact idle_of_running (chanAct_within h) hst hp

/-! ### The table -/

theorem evalWindow_keeps {s : State} (k : Chan) (hs : ChannelsIdle s) : ChannelsIdle (s.evalWindow k) := by
  have hw : ChannelsIdle (windowed s k (openAfter s k)) := hs
  obtain e | e | e | e := evalWindow_cases s k <;> rw [e]
  · exact hs
  · exact hw
  · unfold State.windowOpens
    split
    · rename_i ha
      exact chanAct_keeps (.synchronize k _ (not_idle ha.2 (by decide))) hw
    · exact hw
  · unfold State.windowEmpty
    split
    · rename_i hr
      exact chanAct_keeps (.endRun k _ _ (inRun_not_idle hr.2)) hw
    · exact hw

theorem evalCounts_keeps {s : State} (hs : ChannelsIdle s) : ChannelsIdle s.evalCounts := hs

theorem evaluate_keeps {s : State} (hs : ChannelsIdle s) : ChannelsIdle s.evaluate := by
  have hfold : ∀ (l : List Chan) (t : State), ChannelsIdle t → ChannelsIdle (l.foldl State.evalWindow t) := by
    intro l
    induction l with
    | nil => exact fun _ ht => ht
    | cons k l ih => exact fun t ht => ih _ (evalWindow_keeps k ht)
  have hk : ChannelsIdle (kept s) := hs
  rw [evaluate_eq]
  exact evalCounts_keeps (hfold allChans _ hk)

theorem tableAct_keeps {s t : State} (h : TableAct s t) (hs : ChannelsIdle s) : ChannelsIdle t := by
  cases h with
  | correct i lead f =>
    unfold State.correct
    exact evaluate_keeps hs
  | create r =>
    unfold State.create
    split
    · exact hs
    · dsimp only
      split
      · exact hs
      · split
        · exact hs
        · exact evaluate_keeps hs
  | remove id =>
    unfold State.removeId
    split
    · exact evaluate_keeps hs
    · exact hs
  | travel e => exact evaluate_keeps hs

/-! ### Every act, every step -/

theorem act_keeps_idle (s t : State) (h : Act s t) (hs : ChannelsIdle s) : ChannelsIdle t := by
  cases h with
  | mild h =>
    intro hstop k
    rw [(h.chans k).1]
    rw [h.station, h.process] at hstop
    exact hs hstop k
  | line h => rw [lineAct_within h]; exact hs
  | chan h => exact chanAct_keeps h hs
  | table h => exact tableAct_keeps h hs
  | alarm h =>
    cases h with
    | sample events => unfold State.raiseLine; split <;> exact hs
    | ack points =>
      unfold State.ackLine
      repeat' split
      all_goals exact hs
    | gap => unfold onGapTimerExpiry; split <;> exact hs
  | station h =>
    cases h with
    | conflict =>
      have hi := stopChans_idle s
      rw [enterConflict_eq]
      generalize s.stopChans = u at hi
      exact fun _ k => hi k
    | unconfigured _ hl => exact fun _ k => hs (.inl (by rw [hl]; decide)) k
    | joining img _ hl => exact fun _ k => hs (.inl (by rw [hl]; decide)) k
    | operating _ hj => exact fun _ k => hs (.inl (by rw [hj]; decide)) k
    | run _ ho => exact fun hstop => absurd hstop (not_or.2 ⟨not_not.2 ho, fun e => (by cases e)⟩)
    | stop =>
      have hi := stopChans_idle s
      rw [setStopped_eq]
      generalize s.stopChans = u at hi
      exact fun _ k => hi k
    | reset => exact fun _ k => by simp [Channel.reset]

/-- Settles O57: by what each act of an event does to the channels. -/
theorem stepKeepsStoppedChannelsIdle : Obligations.StepKeepsStoppedChannelsIdle := by
  intro s t hst hs h
  exact (stationOk_step (fun a b hab _ ha => act_keeps_idle a b hab ha) (fun _ _ _ hu => hu) hst hs h).2

end Sys2Proof.Proofs.Idle
end

section
/-! PROOF. Every step keeps the alarm line as the points stand (R150 to R154). -/

namespace Sys2Proof.Proofs.Alarm

open Sys2Proof Sys2Proof.Machine Sys2Proof.Proofs.Event Sys2Proof.Proofs.Station

-- Proofs are elaborated in order: in the joined text the parallel ones would hold more threads at once than the memory limit allows.
set_option Elab.async false

/-! ### Points -/

theorem mem_all8 (i : Ix8) : i ∈ all8 := by revert i; decide

theorem anyAlarmed_iff (s : State) : s.anyAlarmed = true ↔ ∃ i : Ix8, s.mb.points[i].alarmed = true := by
  simp only [State.anyAlarmed, Vector.any_eq_true, Fin.getElem_fin]
  exact ⟨fun ⟨i, hi, h⟩ => ⟨⟨i, hi⟩, h⟩, fun ⟨i, h⟩ => ⟨i.val, i.isLt, h⟩⟩

theorem reset_not_alarmed : State.reset.anyAlarmed = false := by
  refine Bool.eq_false_iff.2 fun h => ?_
  obtain ⟨i, hi⟩ := (anyAlarmed_iff _).1 h
  revert i
  decide

/-- Of a fold that sets each member of a list at most, every member is the old one or the one set. -/
theorem foldl_set_get {p : Ix8 → Prop} [DecidablePred p] (f : Ix8 → Point) (i : Ix8) :
    ∀ (l : List Ix8) (v : Vector Point 8), l.Nodup →
      (l.foldl (fun v j => if p j then v.set j (f j) else v) v)[i] = if i ∈ l ∧ p i then f i else v[i]
  | [], v, _ => by simp
  | j :: l, v, hn => by
    obtain ⟨hj, hl⟩ := List.nodup_cons.1 hn
    rw [List.foldl_cons, foldl_set_get f i l _ hl]
    by_cases hij : i = j
    · subst hij
      by_cases hp : p i <;> simp [hj, hp]
    · have hv : j.val ≠ i.val := fun e => hij (Fin.ext e.symm)
      by_cases hp : p j <;> simp [hij, hp, hv]

/-- What a sampling makes of each point: a sampled one where its event is sampled, and else the point itself (R148). -/
theorem sampledPoints_get (s : State) (events : List (Option Update)) (i : Ix8) :
    (sampledPoints s events)[i] =
      if s.cl.image.points[i].inUse ∧ pointUpdate s.cl.image.points[i] ∈ events then
        samplePoint s s.cl.image.points[i] s.mb.points[i] else s.mb.points[i] := by
  unfold sampledPoints
  rw [foldl_set_get (fun j => samplePoint s s.cl.image.points[j] s.mb.points[j]) i all8 _ (by decide)]
  simp [mem_all8]

/-- A sample takes no point out of RAISED and CLEARED-UNACKED, and brings it there by an entry to RAISED alone (R150). -/
theorem sampled_alarmed (p : Point) (q : Nat) (present : Bool) :
    (p.alarmed = true → (p.sampled q present).alarmed = true) ∧
      ((p.sampled q present).alarmed = true → p.alarmed = true ∨ alarmFor p.st (p.sampled q present).st = some true) ∧
      (alarmFor p.st (p.sampled q present).st = some true → (p.sampled q present).alarmed = true) := by
  rcases p with ⟨st, count, memory⟩
  cases st <;> cases present <;> simp only [Point.sampled] <;> (try split) <;> simp [Point.alarmed, alarmFor]

theorem samplePoint_st (s : State) (c : PointCfg) (p : Point) :
    (samplePoint s c p).st = (p.sampled c.qualification (found s c p)).st := by
  unfold samplePoint
  dsimp only
  split <;> rfl

theorem alarmed_of_st {p q : Point} (h : p.st = q.st) : p.alarmed = q.alarmed := by
  unfold Point.alarmed
  rw [h]

/-- The same of the points that a sampling leaves. -/
theorem sampledPoints_alarmed (s : State) (events : List (Option Update)) (i : Ix8) :
    (s.mb.points[i].alarmed = true → (sampledPoints s events)[i].alarmed = true) ∧
      ((sampledPoints s events)[i].alarmed = true →
        s.mb.points[i].alarmed = true ∨ alarmFor s.mb.points[i].st (sampledPoints s events)[i].st = some true) ∧
      (alarmFor s.mb.points[i].st (sampledPoints s events)[i].st = some true → (sampledPoints s events)[i].alarmed = true) := by
  rw [sampledPoints_get]
  split
  · rw [alarmed_of_st (samplePoint_st s _ _), samplePoint_st]
    exact sampled_alarmed _ _ _
  · refine ⟨id, .inl, fun h => ?_⟩
    revert h
    cases s.mb.points[i].st <;> simp [alarmFor]

theorem newlyRaised_iff (before after : Vector Point 8) :
    newlyRaised before after = true ↔ ∃ i : Ix8, alarmFor before[i].st after[i].st = some true := by
  simp only [newlyRaised, List.any_eq_true, mem_all8, true_and, decide_eq_true_eq]

/-- An acknowledgement that names no RAISED or CLEARED-UNACKED point changes no point (R151). -/
theorem ackPoints_same {s : State} {points : BitVec 8} (h : ∀ i : Ix8, points.getLsbD i.val = true → s.mb.points[i].alarmed = false) :
    ackPoints s points = s.mb.points := by
  ext j hj
  simp only [ackPoints, Vector.getElem_mapIdx]
  split
  · rename_i hn
    have ha := h ⟨j, hj⟩ hn
    simp only [Fin.getElem_fin] at ha
    unfold Point.alarmed at ha
    unfold Point.acked
    split at ha <;> simp_all
  · rfl

/-- A set of members, bit by bit. -/
theorem foldl_set_getLsbD {w : Nat} (f : Fin w → Bool) (n : Fin w) : ∀ (l : List (Fin w)) (acc : BitVec w),
    (l.foldl (fun acc n => if f n then acc ||| BitVec.twoPow w n.val else acc) acc).getLsbD n.val =
      (acc.getLsbD n.val || (decide (n ∈ l) && f n))
  | [], acc => by simp
  | m :: l, acc => by
    rw [List.foldl_cons, foldl_set_getLsbD f n l]
    by_cases hm : n = m
    · subst hm
      cases hf : f n <;> simp
    · have hv : n.val ≠ m.val := fun e => hm (Fin.ext e)
      cases hf : f m <;> simp [hm, hv]

theorem setOf_getLsbD {w : Nat} (members : List (Fin w)) (f : Fin w → Bool) (n : Fin w) :
    (Machine.setOf w members f).getLsbD n.val = (decide (n ∈ members) && f n) := by
  rw [Machine.setOf, foldl_set_getLsbD]
  simp

/-- An acknowledgement takes a point out of RAISED or CLEARED-UNACKED where it names one (R151). -/
theorem took_iff (s : State) (points : BitVec 8) :
    s.unackedSet &&& points ≠ 0 ↔ ∃ i : Ix8, points.getLsbD i.val = true ∧ s.mb.points[i].alarmed = true := by
  have hget : ∀ i : Ix8, (s.unackedSet &&& points).getLsbD i.val = (s.mb.points[i].alarmed && points.getLsbD i.val) := by
    intro i
    rw [BitVec.getLsbD_and, State.unackedSet, setOf_getLsbD]
    simp [mem_all8]
  constructor
  · intro hne
    by_contra hno
    refine hne (BitVec.eq_of_getLsbD_eq fun i hi => ?_)
    have h := hget ⟨i, hi⟩
    dsimp only at h
    rw [h, BitVec.ofNat_eq_ofNat, BitVec.getLsbD_zero, Bool.eq_false_iff]
    intro hb
    rw [Bool.and_eq_true] at hb
    exact hno ⟨⟨i, hi⟩, hb.2, hb.1⟩
  · rintro ⟨i, hp, ha⟩ hz
    have h := hget i
    rw [hz, hp, ha] at h
    simp at h

/-! ### The alarm line -/

theorem alarmOk_of_same {s t : State} (hp : t.mb.points = s.mb.points) (ha : t.mb.alarm = s.mb.alarm)
    (hst : t.cl.station = s.cl.station) (hgo : t.cl.started = s.cl.started) (h : AlarmOk s) : AlarmOk t := by
  unfold AlarmOk State.anyAlarmed
  rw [hp, ha, hst, hgo]
  exact h

theorem active_cases {s : State} (h : s.active = true) :
    s.cl.station = .operating ∨ (s.cl.station = .conflict ∧ s.cl.started = true) := by
  simpa [State.active, State.operating] using h

/-- A sampling leaves the alarm line as the points then stand (R153, R154). -/
theorem sample_alarmOk {s : State} (events : List (Option Update)) (ha : s.active = true) (hst : Stated s) (h : AlarmOk s) :
    AlarmOk (({ s with mb.points := sampledPoints s events } : State).raiseLine
      (newlyRaised s.mb.points (sampledPoints s events))) := by
  have hstay : s.anyAlarmed = true → ∃ i : Ix8, (sampledPoints s events)[i].alarmed = true := fun hb =>
    let ⟨i, hi⟩ := (anyAlarmed_iff s).1 hb
    ⟨i, (sampledPoints_alarmed s events i).1 hi⟩
  obtain ⟨hout, hop, -, -⟩ := h
  obtain ho | ⟨hc, hgo⟩ := active_cases ha
  · have hgo : s.cl.started = true := hst.1 ho
    have hof : State.operating { s with mb.points := sampledPoints s events } = true := (State.operating_iff _).2 ho
    obtain ⟨hop, hnone⟩ := hop ho
    unfold State.raiseLine
    split
    · rename_i hn
      obtain ⟨i, hi⟩ := (newlyRaised_iff _ _).1 hn.1
      have hany : ∃ i : Ix8, (sampledPoints s events)[i].alarmed = true := ⟨i, (sampledPoints_alarmed s events i).2.2 hi⟩
      refine ⟨fun _ => rfl, fun _ => ⟨fun _ => by simp, fun hf => ?_⟩, fun hl => ?_, fun hg => ?_⟩
      · exact absurd ((anyAlarmed_iff _).2 hany) (by rw [hf]; simp)
      · exact absurd ho (by rcases hl with hl | hl <;> (dsimp only at hl; simp [hl]))
      · exact absurd hgo (by dsimp only at hg; simp [hg])
    · rename_i hn
      have hnew : ¬newlyRaised s.mb.points (sampledPoints s events) = true := fun hb => hn ⟨hb, hof⟩
      refine ⟨fun hl => ?_, fun _ => ⟨fun hany => ?_, fun hf => ?_⟩, fun hl => ?_, fun hg => ?_⟩
      · exact absurd ho (by rcases hl with hl | hl <;> (dsimp only at hl; simp [hl]))
      · obtain ⟨i, hi⟩ := (anyAlarmed_iff _).1 hany
        rcases (sampledPoints_alarmed s events i).2.1 hi with hb | hb
        · exact hop ((anyAlarmed_iff s).2 ⟨i, hb⟩)
        · exact absurd ((newlyRaised_iff _ _).2 ⟨i, hb⟩) hnew
      · refine hnone (Bool.eq_false_iff.2 fun hb => ?_)
        exact absurd ((anyAlarmed_iff _).2 (hstay hb)) (by rw [hf]; simp)
      · exact absurd ho (by rcases hl with hl | hl <;> (dsimp only at hl; simp [hl]))
      · exact absurd hgo (by dsimp only at hg; simp [hg])
  · have hof : State.operating { s with mb.points := sampledPoints s events } = false := by
      simp [State.operating, hc]
    unfold State.raiseLine
    rw [if_neg fun hn => by simp [hof] at hn]
    refine ⟨fun _ => hout (.inr hc), fun hl => ?_, fun hl => ?_, fun hg => ?_⟩
    · exact absurd hc (by dsimp only at hl; simp [hl])
    · exact absurd hc (by rcases hl with hl | hl <;> (dsimp only at hl; simp [hl]))
    · exact absurd hgo (by dsimp only at hg; simp [hg])

/-- In OPERATING the alarm line is in order where it is asserted or in a gap while a point is alarmed, and not asserted while
none is. -/
theorem alarmOk_operating {t : State} (ho : t.cl.station = .operating) (hgo : t.cl.started = true)
    (h : (t.anyAlarmed = true → t.mb.alarm ≠ .deasserted) ∧ (t.anyAlarmed = false → t.mb.alarm ≠ .asserted)) : AlarmOk t :=
  ⟨fun hl => by simp [ho] at hl, fun _ => h, fun hl => by simp [ho] at hl, fun hg => by simp [hgo] at hg⟩

/-- An acknowledgement moves the alarm line as the points then stand (R153, R154). -/
theorem ack_alarmOk {s : State} (points : BitVec 8) (ho : s.cl.station = .operating) (hst : Stated s) (h : AlarmOk s) :
    AlarmOk (({ s with mb.points := ackPoints s points } : State).ackLine (decide (s.unackedSet &&& points ≠ 0))) := by
  have hgo : s.cl.started = true := hst.1 ho
  have hbefore := h.2.1 ho
  unfold State.ackLine
  split
  · rename_i hstill
    refine alarmOk_operating ho hgo ?_
    rcases hstill with hnone | hgap
    · have hsame : ackPoints s points = s.mb.points := by
        refine ackPoints_same fun i hi => Bool.eq_false_iff.2 fun ha => ?_
        simp only [Bool.not_eq_true', decide_eq_false_iff_not] at hnone
        exact hnone ((took_iff s points).2 ⟨i, hi, ha⟩)
      unfold State.anyAlarmed at hbefore ⊢
      dsimp only
      rw [hsame]
      exact hbefore
    · dsimp only at hgap ⊢
      rw [hgap]
      exact ⟨fun _ => by simp, fun _ => by simp⟩
  · split
    · exact alarmOk_operating ho hgo ⟨fun _ => by simp, fun _ => by simp⟩
    · rename_i hnone
      refine alarmOk_operating ho hgo ⟨fun ha => absurd ha hnone, fun _ => by simp⟩

theorem gap_alarmOk {s : State} (h : AlarmOk s) : AlarmOk (onGapTimerExpiry s) := by
  unfold onGapTimerExpiry
  split
  · rename_i hgap
    obtain ⟨hout, hop, hdown, hstart⟩ := h
    refine ⟨fun hl => ?_, fun _ => ⟨fun ha => ?_, fun ha => ?_⟩, fun hl => ?_, hstart⟩
    · exact absurd (hout hl) (by simp [hgap])
    · have ha' : s.anyAlarmed = true := ha
      simp [ha']
    · have ha' : s.anyAlarmed = false := ha
      simp [ha']
    · exact absurd (hdown hl) (by simp [hgap])
  · exact h

/-! ### Every act, every step -/

theorem act_keeps_alarm (s t : State) (h : Act s t) (hst : Stated s) (hs : AlarmOk s) : AlarmOk t := by
  cases h with
  | mild h => exact alarmOk_of_same h.points h.alarm h.station h.started hs
  | line h => rw [lineAct_within h]; exact hs
  | chan h =>
    have h := chanAct_within h
    rw [ByChannels] at h
    rw [h]
    exact hs
  | table h =>
    have h := tableAct_within h
    rw [ByTable] at h
    rw [h]
    exact hs
  | alarm h =>
    cases h with
    | sample events _ ha => exact sample_alarmOk events ha hst hs
    | ack points _ ho => exact ack_alarmOk points ho hst hs
    | gap => exact gap_alarmOk hs
  | station h =>
    obtain ⟨hout, hop, hdown, hstart⟩ := hs
    cases h with
    | conflict =>
      rw [enterConflict_eq]
      generalize s.stopChans = u
      exact ⟨fun _ => rfl, fun hl => (by cases hl), fun hl => (by cases hl <;> contradiction), hstart⟩
    | unconfigured => exact ⟨fun _ => rfl, fun hl => (by cases hl), fun hl => (by cases hl <;> contradiction), hstart⟩
    | joining img _ hl =>
      exact ⟨fun h => (by cases h <;> contradiction), fun h => (by cases h), fun _ => hdown (.inl hl), hstart⟩
    | operating _ hj =>
      have hns : s.cl.started = false := Bool.eq_false_iff.2 fun hg => by simpa [hj] using hst.2 hg
      refine alarmOk_operating rfl rfl ⟨fun ha => ?_, fun _ => ?_⟩
      · exact absurd ha (by have := hstart hns; unfold State.anyAlarmed at this ⊢; simp [this])
      · show s.mb.alarm ≠ .asserted
        rw [hdown (.inr hj)]
        decide
    | run => exact ⟨hout, hop, hdown, hstart⟩
    | stop =>
      rw [setStopped_eq]
      generalize s.stopChans = u
      exact ⟨hout, hop, hdown, hstart⟩
    | reset =>
      exact ⟨fun h => (by cases h <;> contradiction), fun h => (by cases h), fun _ => rfl, fun _ => reset_not_alarmed⟩

/-- Settles O58: by what each act of an event does to the points and the alarm line. -/
theorem stepKeepsTheAlarmLine : Obligations.StepKeepsTheAlarmLine := by
  intro s t hst hs h
  exact (stationOk_step act_keeps_alarm (fun _ _ _ hu => hu) hst hs h).2

end Sys2Proof.Proofs.Alarm
end

section
/-! PROOF. The order of the transit table: where a new record stands and what a correction makes of a lead (R22, R23). -/

namespace Sys2Proof.Proofs.TableOrder

open Sys2Proof Sys2Proof.Machine Sys2Proof.Proofs.Event

-- Proofs are elaborated in order: in the joined text the parallel ones would hold more threads at once than the memory limit allows.
set_option Elab.async false

/-! ### New records -/

theorem lowerPast_ne {x : BoardRec} {l : Nat} (h : x.lead ≠ l) (rs : List BoardRec) :
    lowerPast (x :: rs) l = lowerPast rs l := by
  conv_lhs => unfold lowerPast
  exact if_neg h

theorem lowerPast_zero {x : BoardRec} (h : x.lead = 0) (rs : List BoardRec) : lowerPast (x :: rs) 0 = none := by
  unfold lowerPast
  exact if_pos h

theorem lowerPast_succ {x : BoardRec} {l : Nat} (h : x.lead = l + 1) (rs : List BoardRec) :
    lowerPast (x :: rs) (l + 1) = lowerPast rs l := by
  conv_lhs => unfold lowerPast
  exact if_pos h

/-- Records that do not hold a lead do not lower it. -/
theorem lowerPast_skip {a : List BoardRec} {l : Nat} (h : ∀ x ∈ a, x.lead ≠ l) (rs : List BoardRec) :
    lowerPast (a ++ rs) l = lowerPast rs l := by
  induction a with
  | nil => rfl
  | cons x a ih =>
    rw [List.cons_append, lowerPast_ne (h x List.mem_cons_self)]
    exact ih fun y hy => h y (List.mem_cons_of_mem x hy)

/-- A run of records that hold a lead and the leads next below lowers it past them, or below zero. -/
theorem lowerPast_run : ∀ (run b : List BoardRec) (l : Nat),
    (∀ (i : Nat) (x : BoardRec), run[i]? = some x → x.lead + i = l) → (∀ x ∈ b, x.lead + run.length < l) →
    lowerPast (run ++ b) l = if l < run.length then none else some (l - run.length)
  | [], b, l, _, hb => by
    have h := lowerPast_skip (a := b) (l := l) (fun x hx => Nat.ne_of_lt (by simpa using hb x hx)) []
    rw [List.append_nil] at h
    rw [List.nil_append, h]
    rfl
  | x :: run, b, l, hrun, hb => by
    have hx : x.lead = l := hrun 0 x rfl
    cases l with
    | zero => simp [lowerPast_zero hx]
    | succ l =>
      rw [List.cons_append, lowerPast_succ hx, lowerPast_run run b l (fun i y hy => by have := hrun (i + 1) y (by simpa using hy); omega)
        fun y hy => by have := hb y hy; rw [List.length_cons] at this; omega]
      simp only [List.length_cons, Nat.add_lt_add_iff_right, Nat.add_sub_add_right]

/-- A record stands upstream of those with a greater lead and downstream of the next. -/
theorem insertRec_split {r : BoardRec} {a b : List BoardRec} (ha : ∀ x ∈ a, r.lead < x.lead)
    (hb : ∀ x ∈ b, x.lead < r.lead) : insertRec r (a ++ b) = a ++ r :: b := by
  induction a with
  | nil =>
    cases b with
    | nil => rfl
    | cons y b => exact if_neg (Nat.lt_asymm (hb y List.mem_cons_self))
  | cons x a ih =>
    rw [List.cons_append, insertRec, if_pos (ha x List.mem_cons_self), ih fun y hy => ha y (List.mem_cons_of_mem x hy)]
    rfl

/-- The creation of a record whose lead is lowered to `l`. -/
theorem create_of_lowered {s : State} {r : BoardRec} {l : Nat} (h : lowerPast s.tt.table r.lead = some l) :
    s.create r =
      if maxPosition < l ∨ (s.cl.image.station.forgetPosition : Int) < ({ r with lead := l } : BoardRec).trail then s
      else if 24 ≤ s.tt.table.length then { s with tt.overflow := true }
      else State.evaluate { s with tt.table := insertRec { r with lead := l } s.tt.table } := by
  unfold State.create
  rw [h]

theorem create_of_below {s : State} {r : BoardRec} (h : lowerPast s.tt.table r.lead = none) : s.create r = s := by
  unfold State.create
  rw [h]

/-! ### Corrections -/

/-- A limited lead stays between its neighbours (R23). -/
theorem limitLead_between (down up : Option BoardRec) (x lead : Nat) (hd : ∀ d ∈ down, lead < d.lead)
    (hu : ∀ u ∈ up, u.lead < lead) :
    (∀ d ∈ down, limitLead down up x < d.lead) ∧ (∀ u ∈ up, u.lead < limitLead down up x) ∧
      ((∀ d ∈ down, min x maxPosition < d.lead) → (∀ u ∈ up, u.lead < min x maxPosition) →
        limitLead down up x = min x maxPosition) ∧
      (∀ d ∈ down, d.lead ≤ min x maxPosition → limitLead down up x = d.lead - 1) ∧
      ∀ u ∈ up, min x maxPosition ≤ u.lead → limitLead down up x = u.lead + 1 := by
  generalize htop : min x maxPosition = top
  unfold limitLead
  cases down with
  | none =>
    cases up with
    | none => simp [htop]
    | some u =>
      simp only [Option.mem_some_iff, forall_eq'] at hu ⊢
      simp only [htop]
      refine ⟨by simp, ?_, fun _ h => if_neg (by omega), by simp, fun h => if_pos h⟩
      split <;> omega
  | some d =>
    simp only [Option.mem_some_iff, forall_eq'] at hd ⊢
    cases up with
    | none =>
      simp only [htop]
      refine ⟨?_, by simp, fun h _ => if_neg (by omega), fun h => if_pos h, by simp⟩
      split <;> omega
    | some u =>
      simp only [Option.mem_some_iff, forall_eq'] at hu ⊢
      simp only [htop]
      refine ⟨?_, ?_, fun _ _ => ?_, fun _ => ?_, fun _ => ?_⟩ <;> (repeat' split) <;> omega

theorem downstream_split (a b : List BoardRec) (r : BoardRec) : downstream (a ++ r :: b) a.length = a.getLast? := by
  unfold downstream
  cases a using List.reverseRecOn with
  | nil => rfl
  | append_singleton a x => simp

theorem upstream_split (a b : List BoardRec) (r : BoardRec) : (a ++ r :: b)[a.length + 1]? = b.head? := by
  cases b <;> simp

/-- A table in order about one of its records. -/
theorem pairwise_split {a b : List BoardRec} {r : BoardRec} (h : (a ++ r :: b).Pairwise fun y z => z.lead < y.lead) :
    (∀ y ∈ a, r.lead < y.lead) ∧ (∀ y ∈ b, y.lead < r.lead) ∧ (a.Pairwise fun y z => z.lead < y.lead) ∧
      b.Pairwise fun y z => z.lead < y.lead := by
  obtain ⟨ha, hb, hab⟩ := List.pairwise_append.1 h
  obtain ⟨hr, hb⟩ := List.pairwise_cons.1 hb
  exact ⟨fun y hy => hab y hy r List.mem_cons_self, hr, ha, hb⟩

/-- What is below the last of a decreasing list is below all of it. -/
theorem lt_of_lt_getLast {a : List BoardRec} {l : Nat} (h : a.Pairwise fun y z => z.lead < y.lead)
    (hl : ∀ d ∈ a.getLast?, l < d.lead) : ∀ y ∈ a, l < y.lead := by
  cases a using List.reverseRecOn with
  | nil => exact fun y hy => by cases hy
  | append_singleton a x =>
    have hx : l < x.lead := hl x (by simp)
    intro y hy
    rcases List.mem_append.1 hy with hy | hy
    · exact hx.trans ((List.pairwise_append.1 h).2.2 y hy x List.mem_cons_self)
    · rwa [List.mem_singleton.1 hy]

/-- What is above the first of a decreasing list is above all of it. -/
theorem lt_of_head_lt {b : List BoardRec} {l : Nat} (h : b.Pairwise fun y z => z.lead < y.lead)
    (hl : ∀ u ∈ b.head?, u.lead < l) : ∀ y ∈ b, y.lead < l := by
  cases b with
  | nil => exact fun y hy => by cases hy
  | cons x b =>
    have hx : x.lead < l := hl x rfl
    intro y hy
    rcases List.mem_cons.1 hy with rfl | hy
    · exact hx
    · exact ((List.pairwise_cons.1 h).1 y hy).trans hx

/-- A correction of the record between two parts of the table. -/
theorem correct_split {s : State} {a b : List BoardRec} {r : BoardRec} (h : s.tt.table = a ++ r :: b) (x : Nat)
    (f : BoardRec → BoardRec) :
    s.correct a.length x f =
      State.evaluate { s with tt.table := a ++ { f r with lead := limitLead a.getLast? b.head? x } :: b } := by
  have hm : ∀ g : BoardRec → BoardRec, (a ++ r :: b).modify a.length g = a ++ g r :: b := by
    intro g
    rw [List.modify_eq_take_cons_drop (by simp)]
    simp
  unfold State.correct
  dsimp only
  rw [h, downstream_split, upstream_split, hm]

/-- A lead above those of `b` and below those of `a`, the neighbours' limits. -/
theorem limitLead_split {a b : List BoardRec} {r : BoardRec} (h : (a ++ r :: b).Pairwise fun y z => z.lead < y.lead)
    (x : Nat) :
    (∀ y ∈ a, limitLead a.getLast? b.head? x < y.lead) ∧ ∀ y ∈ b, y.lead < limitLead a.getLast? b.head? x := by
  obtain ⟨ha, hb, hpa, hpb⟩ := pairwise_split h
  have hl := limitLead_between a.getLast? b.head? x r.lead (fun d hd => ha d (List.mem_of_getLast? hd))
    fun u hu => hb u (List.mem_of_head? hu)
  exact ⟨lt_of_lt_getLast hpa hl.1, lt_of_head_lt hpb hl.2.1⟩

/-- Settles O16: by the records past which a new one's lead is lowered, and by the neighbours of a corrected one. -/
theorem recordsKeepTheirOrder : Obligations.RecordsKeepTheirOrder := by
  refine ⟨fun s r a run b ht ha hrun hb => ?_, fun s a b r x f ht hp => ?_⟩
  · have hlow : lowerPast s.tt.table r.lead = if r.lead < run.length then none else some (r.lead - run.length) := by
      rw [ht, List.append_assoc, lowerPast_skip fun x hx => Nat.ne_of_gt (ha x hx)]
      exact lowerPast_run run b r.lead hrun hb
    refine ⟨fun hlt => create_of_below (hlow.trans (if_pos hlt)), fun hle => ?_⟩
    have hc := create_of_lowered (hlow.trans (if_neg (Nat.not_lt.2 hle)))
    refine ⟨fun hout => hc.trans (if_pos hout), fun hmax hforget => ?_⟩
    have hin := hc.trans (if_neg (not_or.2 ⟨Nat.not_lt.2 hmax, Int.not_lt.2 hforget⟩))
    refine ⟨fun hfull => hin.trans (if_pos hfull), fun hroom => ?_⟩
    rw [hin, if_neg (Nat.not_le.2 hroom), ht, insertRec_split (a := a ++ run) (b := b)]
    · intro y hy
      rcases List.mem_append.1 hy with hy | hy
      · exact (Nat.sub_le _ _).trans_lt (ha y hy)
      · obtain ⟨i, hi⟩ := List.mem_iff_getElem?.1 hy
        have hlen := (List.getElem?_eq_some_iff.1 hi).1
        have hlead := hrun i y hi
        dsimp only
        omega
    · intro y hy
      have := hb y hy
      dsimp only
      omega
  · rw [ht] at hp
    obtain ⟨ha, hb, -, -⟩ := pairwise_split hp
    obtain ⟨hdown, hup⟩ := limitLead_split hp x
    obtain ⟨-, -, hfree, hlow, hhigh⟩ := limitLead_between a.getLast? b.head? x r.lead
      (fun d hd => ha d (List.mem_of_getLast? hd)) fun u hu => hb u (List.mem_of_head? hu)
    refine ⟨_, correct_split ht x f, hdown, hup, fun hxa hxb => hfree ?_ ?_, hlow, hhigh⟩
    · exact fun d hd => hxa d (List.mem_of_getLast? hd)
    · exact fun u hu => hxb u (List.mem_of_head? hu)

end Sys2Proof.Proofs.TableOrder
end

section
/-! PROOF. Every step keeps the transit table in order (R20 to R24, R36). -/

namespace Sys2Proof.Proofs.TransitTable

open Sys2Proof Sys2Proof.Machine Sys2Proof.Proofs.Event Sys2Proof.Proofs.Station Sys2Proof.Proofs.TableOrder

-- Proofs are elaborated in order: in the joined text the parallel ones would hold more threads at once than the memory limit allows.
set_option Elab.async false

/-! ### The table up to its marks -/

/-- The order of the table, of a list of records (R20, R21, R24, R36). -/
abbrev Ordered (forget : Nat) (l : List BoardRec) : Prop :=
  l.length ≤ 24 ∧ l.Pairwise (fun a b => b.lead < a.lead ∧ (a.id = b.id → a.id = 0)) ∧ ∀ r ∈ l, RecordOk forget r

/-- What an evaluation needs of the records to leave them in order: records that it removes may hold equal leads. -/
abbrev Placed (l : List BoardRec) : Prop :=
  l.length ≤ 24 ∧ l.Pairwise (fun a b => (b.lead < a.lead ∨ maxPosition ≤ a.lead) ∧ (a.id = b.id → a.id = 0)) ∧
    ∀ r ∈ l, 10 ≤ r.length ∧ r.length ≤ 650

theorem ordered_bodies (forget : Nat) (l : List BoardRec) : Ordered forget (l.map BoardRec.body) ↔ Ordered forget l := by
  unfold Ordered
  rw [List.length_map, List.pairwise_map, List.forall_mem_map]
  rfl

theorem tableOk_iff (s : State) :
    TableOk s ↔ Ordered s.cl.image.station.forgetPosition (bodies s) ∧ (s.cl.started = false → bodies s = []) := by
  rw [bodies, ordered_bodies, List.map_eq_nil_iff]
  exact ⟨fun ⟨hl, hp, hr, hn⟩ => ⟨⟨hl, hp, hr⟩, hn⟩, fun ⟨⟨hl, hp, hr⟩, hn⟩ => ⟨hl, hp, hr, hn⟩⟩

theorem tableOk_congr {s t : State} (hb : bodies t = bodies s) (hi : t.cl.image = s.cl.image)
    (hg : t.cl.started = s.cl.started) (hs : TableOk s) : TableOk t := by
  rw [tableOk_iff, hb, hi, hg]
  exact (tableOk_iff s).1 hs

theorem TableOk.placed {s : State} (h : TableOk s) : Placed s.tt.table := by
  obtain ⟨hl, hp, hr, -⟩ := h
  exact ⟨hl, hp.imp fun hab => ⟨.inl hab.1, hab.2⟩, fun r hx => ⟨(hr r hx).1, (hr r hx).2.1⟩⟩

/-! ### The evaluation -/

theorem passed_false {s : State} {r : BoardRec} (h : s.passed r = false) :
    r.trail ≤ (s.cl.image.station.forgetPosition : Int) ∧ r.lead < maxPosition := by
  simpa [State.passed] using h

theorem keptRecords_ordered {s : State} (h : Placed s.tt.table) :
    Ordered s.cl.image.station.forgetPosition (keptRecords s) := by
  obtain ⟨hl, hp, hr⟩ := h
  have hin : ∀ {r : BoardRec}, r ∈ keptRecords s → s.passed r = false := fun hx => by
    simpa using (List.mem_filter.1 hx).2
  refine ⟨?_, ?_, fun r hx => ?_⟩
  · refine (List.length_filter_le _ _).trans ?_
    rwa [List.length_map]
  · have hm : (s.tt.table.map s.markMissed).Pairwise
        fun a b => (b.lead < a.lead ∨ maxPosition ≤ a.lead) ∧ (a.id = b.id → a.id = 0) := List.pairwise_map.2 hp
    refine List.Pairwise.imp_of_mem (fun {a b} ha _ hab => ⟨?_, hab.2⟩) (hm.filter _)
    exact hab.1.resolve_right (Nat.not_le.2 (passed_false (hin ha)).2)
  · obtain ⟨htrail, hlead⟩ := passed_false (hin hx)
    obtain ⟨y, hy, rfl⟩ := List.mem_map.1 (List.mem_filter.1 hx).1
    exact ⟨(hr y hy).1, (hr y hy).2, hlead, htrail⟩

theorem evaluate_cl (s : State) : s.evaluate.cl = s.cl := by
  have h := evaluate_within s
  rw [ByTable] at h
  rw [h]

/-- An evaluation leaves the table in order. -/
theorem evaluate_tableOk {s : State} (h : Placed s.tt.table) (hn : s.cl.started = false → s.tt.table = []) :
    TableOk s.evaluate := by
  rw [tableOk_iff, evaluate_bodies, evaluate_cl, ordered_bodies]
  refine ⟨keptRecords_ordered h, fun hg => ?_⟩
  rw [keptRecords, hn hg]
  rfl

/-! ### The acts of the table -/

/-- A corrected record keeps its place (R23). -/
theorem correct_tableOk {s : State} (i lead : Nat) (f : BoardRec → BoardRec) (hs : TableOk s)
    (h : ∀ r, s.tt.table[i]? = some r → (f r).id = r.id ∧
      (10 ≤ r.length ∧ r.length ≤ 650 → 10 ≤ (f r).length ∧ (f r).length ≤ 650)) : TableOk (s.correct i lead f) := by
  cases hi : s.tt.table[i]? with
  | none =>
    have hm : ∀ g : BoardRec → BoardRec, s.tt.table.modify i g = s.tt.table := fun g =>
      List.modify_eq_self (List.getElem?_eq_none_iff.1 hi)
    unfold State.correct
    dsimp only
    rw [hm]
    exact evaluate_tableOk (TableOk.placed hs) hs.2.2.2
  | some r =>
    obtain ⟨hlt, hr⟩ := List.getElem?_eq_some_iff.1 hi
    have ht : s.tt.table = s.tt.table.take i ++ r :: s.tt.table.drop (i + 1) := by
      rw [← hr, List.getElem_cons_drop, List.take_append_drop]
    have hlen : (s.tt.table.take i).length = i := by
      rw [List.length_take]
      omega
    generalize s.tt.table.take i = a at ht hlen
    generalize s.tt.table.drop (i + 1) = b at ht
    subst hlen
    obtain ⟨hid, hlength⟩ := h r hi
    rw [correct_split ht]
    obtain ⟨hsize, hp, hrec, hnone⟩ := hs
    rw [ht] at hsize hp hrec hnone
    obtain ⟨hdown, hup⟩ := limitLead_split (hp.imp And.left) lead
    refine evaluate_tableOk ⟨by simpa using hsize, ?_, ?_⟩ fun hg => absurd (hnone hg) (by simp)
    · obtain ⟨ha, hb, hab⟩ := List.pairwise_append.1 hp
      obtain ⟨hrb, hb⟩ := List.pairwise_cons.1 hb
      refine List.pairwise_append.2 ⟨ha.imp fun h => ⟨.inl h.1, h.2⟩,
        List.pairwise_cons.2 ⟨fun y hy => ⟨.inl (hup y hy), ?_⟩, hb.imp fun h => ⟨.inl h.1, h.2⟩⟩, fun y hy z hz => ?_⟩
      · dsimp only
        rw [hid]
        exact (hrb y hy).2
      · rcases List.mem_cons.1 hz with rfl | hz
        · refine ⟨.inl (hdown y hy), ?_⟩
          dsimp only
          rw [hid]
          exact (hab y hy r List.mem_cons_self).2
        · exact ⟨.inl (hab y hy z (List.mem_cons_of_mem _ hz)).1, (hab y hy z (List.mem_cons_of_mem _ hz)).2⟩
    · intro y hy
      rcases List.mem_append.1 hy with hy | hy
      · have := hrec y (List.mem_append_left _ hy)
        exact ⟨this.1, this.2.1⟩
      · rcases List.mem_cons.1 hy with rfl | hy
        · have := hrec r (List.mem_append_right _ List.mem_cons_self)
          exact hlength ⟨this.1, this.2.1⟩
        · have := hrec y (List.mem_append_right _ (List.mem_cons_of_mem _ hy))
          exact ⟨this.1, this.2.1⟩

/-- A lowered lead is held by no record of a table in order (R22). -/
theorem lowerPast_free : ∀ {l : List BoardRec} {x y : Nat}, l.Pairwise (fun a b => b.lead < a.lead) →
    lowerPast l x = some y → y ≤ x ∧ ∀ r ∈ l, r.lead ≠ y
  | [], x, y, _, h => by
    have : x = y := by simpa [lowerPast] using h
    exact ⟨this.ge, fun r hr => by cases hr⟩
  | r :: l, x, y, hp, h => by
    obtain ⟨hr, hp⟩ := List.pairwise_cons.1 hp
    by_cases he : r.lead = x
    · cases x with
      | zero => rw [lowerPast_zero he] at h; cases h
      | succ x =>
        rw [lowerPast_succ he] at h
        obtain ⟨hle, hfree⟩ := lowerPast_free hp h
        exact ⟨by omega, List.forall_mem_cons.2 ⟨by omega, hfree⟩⟩
    · rw [lowerPast_ne he] at h
      obtain ⟨hle, hfree⟩ := lowerPast_free hp h
      refine ⟨hle, List.forall_mem_cons.2 ⟨fun hy => ?_, hfree⟩⟩
      have hskip : lowerPast l x = some x := by
        have := lowerPast_skip (a := l) (l := x) (fun z hz => Nat.ne_of_lt ((hr z hz).trans (by omega))) []
        rwa [List.append_nil] at this
      rw [hskip] at h
      cases h
      exact he hy

theorem insertRec_perm (r : BoardRec) : ∀ l : List BoardRec, (insertRec r l).Perm (r :: l)
  | [] => .refl _
  | x :: l => by
    unfold insertRec
    split
    · exact ((insertRec_perm r l).cons x).trans (.swap r x l)
    · exact .refl _

/-- A record inserted at a lead that none holds, its id held by none, keeps the order. -/
theorem insertRec_pairwise {r : BoardRec} : ∀ {l : List BoardRec},
    l.Pairwise (fun a b => b.lead < a.lead ∧ (a.id = b.id → a.id = 0)) → (∀ x ∈ l, x.lead ≠ r.lead) →
    (r.id = 0 ∨ ∀ x ∈ l, x.id ≠ r.id) →
    (insertRec r l).Pairwise fun a b => b.lead < a.lead ∧ (a.id = b.id → a.id = 0)
  | [], _, _, _ => List.pairwise_singleton _ _
  | x :: l, hp, hl, hid => by
    have hids : ∀ y ∈ x :: l, y.id = r.id → r.id = 0 := fun y hy he => hid.resolve_right fun h => h y hy he
    obtain ⟨hx, hpl⟩ := List.pairwise_cons.1 hp
    unfold insertRec
    split
    · rename_i hlt
      refine List.pairwise_cons.2 ⟨fun y hy => ?_, insertRec_pairwise hpl (fun y hy => hl y (List.mem_cons_of_mem x hy))
        (hid.imp_right fun h y hy => h y (List.mem_cons_of_mem x hy))⟩
      rcases List.mem_cons.1 ((insertRec_perm r l).mem_iff.1 hy) with rfl | hy
      · exact ⟨hlt, fun he => he.trans (hids x List.mem_cons_self he)⟩
      · exact hx y hy
    · rename_i hge
      have hlt : x.lead < r.lead := by have := hl x List.mem_cons_self; omega
      refine List.pairwise_cons.2 ⟨fun y hy => ⟨?_, fun he => hids y hy he.symm⟩, hp⟩
      rcases List.mem_cons.1 hy with rfl | hy
      · exact hlt
      · exact (hx y hy).1.trans hlt

theorem create_tableOk {s : State} (r : BoardRec) (hs : TableOk s) (hst : Stated s) (ho : s.operating = true)
    (hl : 10 ≤ r.length ∧ r.length ≤ 650) (hid : r.id = 0 ∨ ∀ x ∈ s.tt.table, x.id ≠ r.id) : TableOk (s.create r) := by
  have hg : s.cl.started = true := hst.1 ((State.operating_iff s).1 ho)
  obtain ⟨-, -, hrec⟩ := TableOk.placed hs
  cases hlow : lowerPast s.tt.table r.lead with
  | none => rwa [create_of_below hlow]
  | some l =>
    rw [create_of_lowered hlow]
    split
    · exact hs
    · split
      · exact hs
      · rename_i hroom
        obtain ⟨-, hfree⟩ := lowerPast_free (hs.2.1.imp And.left) hlow
        refine evaluate_tableOk ⟨?_, ?_, ?_⟩ fun hn => absurd (hg.symm.trans hn) (by decide)
        · rw [(insertRec_perm _ _).length_eq, List.length_cons]
          omega
        · exact (insertRec_pairwise (r := { r with lead := l }) hs.2.1 hfree hid).imp fun hab => ⟨.inl hab.1, hab.2⟩
        · intro y hy
          rcases List.mem_cons.1 ((insertRec_perm _ _).mem_iff.1 hy) with rfl | hy
          · exact hl
          · exact hrec y hy

theorem removeId_tableOk {s : State} (id : Byte) (hs : TableOk s) : TableOk (s.removeId id) := by
  unfold State.removeId
  split
  · obtain ⟨hsize, hp, hrec⟩ := TableOk.placed hs
    refine evaluate_tableOk ⟨(List.length_filter_le _ _).trans hsize, hp.filter _, fun r hr => ?_⟩ fun hg => ?_
    · exact hrec r (List.mem_filter.1 hr).1
    · show s.tt.table.filter _ = []
      rw [hs.2.2.2 hg]
      rfl
  · exact hs

/-- Travel keeps the order of all but the records that it takes to the end of the range (R48). -/
theorem travel_tableOk {s : State} (e : Nat) (hs : TableOk s) :
    TableOk (State.evaluate { s with tt.table := s.tt.table.map fun r => { r with lead := advanceBy e r.lead } }) := by
  obtain ⟨hsize, hp, hrec, hnone⟩ := hs
  have hadv : ∀ {a b : Nat}, b < a → advanceBy e b < advanceBy e a ∨ maxPosition ≤ advanceBy e a := by
    intro a b hab
    unfold advanceBy
    omega
  refine evaluate_tableOk ⟨(List.length_map _).trans_le hsize, List.pairwise_map.2 ?_, ?_⟩ ?_
  · exact hp.imp fun hab => ⟨hadv hab.1, hab.2⟩
  · intro r hr
    obtain ⟨x, hx, rfl⟩ := List.mem_map.1 hr
    exact ⟨(hrec x hx).1, (hrec x hx).2.1⟩
  · intro hg
    show s.tt.table.map _ = []
    rw [hnone hg]
    rfl

theorem tableAct_tableOk {s t : State} (h : TableAct s t) (hst : Stated s) (hs : TableOk s) : TableOk t := by
  cases h with
  | correct i lead f _ h => exact correct_tableOk i lead f hs h
  | create r _ ho hl hid => exact create_tableOk r hs hst ho hl hid
  | remove id => exact removeId_tableOk id hs
  | travel e =>
    have h := travel_tableOk e hs
    generalize State.evaluate = f at h ⊢
    exact h

/-! ### The channels change marks alone -/

theorem restore_bodies (s : State) (k : Chan) (c : Saved) : bodies (s.restore k c) = bodies s := by
  have h : ∀ x : Channel, bodies (s.setChan k x) = bodies s := fun _ => rfl
  unfold State.restore
  dsimp only
  split
  · exact (enterArmed_bodies _ k).trans (h _)
  · split
    · split
      · exact ((pulseEnds_bodies _ k).trans (markPresent_bodies _ k)).trans (h _)
      · exact (pulseEnds_bodies _ k).trans (h _)
    · split
      · exact (markPresent_bodies _ k).trans (h _)
      · exact h _

theorem permitLost_bodies (s : State) (k : Chan) : bodies (s.permitLost k) = bodies s := by
  unfold State.permitLost
  split
  all_goals first | rfl | exact enterBlocked_bodies s k

theorem chanAct_bodies {s t : State} (h : ChanAct s t) : bodies t = bodies s := by
  cases h with
  | halt k => exact bodies_of_table (haltChan_table s k)
  | save k =>
    unfold haltSave
    split
    · rfl
    · split <;> rfl
  | start permit k =>
    unfold State.startChan
    repeat' split
    · rfl
    · rfl
    · exact enterArmed_bodies s k
    · exact enterBlocked_bodies s k
  | resume permit k =>
    unfold State.continueHeld
    split
    · exact enterBlocked_bodies s k
    · split
      · exact endRun_bodies s k _
      · exact restore_bodies s k _
  | enterOn k => rfl
  | synchronize k => exact bodies_of_table (synchronize_table s k)
  | endRun k cause => exact endRun_bodies s k cause
  | pulseEnds k => exact pulseEnds_bodies s k
  | halted k =>
    unfold onHaltingExpiry
    dsimp only
    split <;> rfl
  | permitLost k => exact permitLost_bodies s k
  | permitReturns k =>
    unfold State.permitReturns
    split
    · exact (enterArmed_bodies _ k).trans (markPresent_bodies s k)
    · rfl

/-! ### Every act, every step -/

theorem act_keeps_table (s t : State) (h : Act s t) (hst : Stated s) (hs : TableOk s) : TableOk t := by
  cases h with
  | mild h => exact tableOk_congr (bodies_of_table h.table) h.image h.started hs
  | line h => rw [lineAct_within h]; exact hs
  | chan h =>
    have hw := chanAct_within h
    refine tableOk_congr (chanAct_bodies h) ?_ ?_ hs <;> (rw [ByChannels] at hw; rw [hw])
  | table h => exact tableAct_tableOk h hst hs
  | alarm h =>
    cases h with
    | sample events => unfold State.raiseLine; split <;> exact hs
    | ack points =>
      unfold State.ackLine
      repeat' split
      all_goals exact hs
    | gap => unfold onGapTimerExpiry; split <;> exact hs
  | station h =>
    cases h with
    | conflict =>
      rw [enterConflict_eq]
      generalize s.stopChans = u
      exact hs
    | unconfigured => exact hs
    | joining img _ hl =>
      have hg : s.cl.started = false := Bool.eq_false_iff.2 fun hg => by simpa [hl] using hst.2 hg
      have hn := hs.2.2.2 hg
      refine (tableOk_iff _).2 ⟨?_, fun _ => ?_⟩
      · rw [bodies, ordered_bodies]
        show Ordered _ s.tt.table
        rw [hn]
        exact ⟨Nat.zero_le _, .nil, fun r hr => by cases hr⟩
      · rw [bodies]
        show s.tt.table.map _ = []
        rw [hn]
        rfl
    | operating _ hj => exact ⟨hs.1, hs.2.1, hs.2.2.1, fun hg => by cases hg⟩
    | run => exact hs
    | stop =>
      rw [setStopped_eq]
      generalize s.stopChans = u
      exact hs
    | reset => exact ⟨Nat.zero_le _, .nil, fun r hr => (by cases hr), fun _ => rfl⟩

/-- Settles O56: by what each act of an event does to the records apart from their marks. -/
theorem stepKeepsTheTransitTable : Obligations.StepKeepsTheTransitTable := by
  intro s t hst hs h
  exact stationOk_step act_keeps_table (fun _ _ _ hu => hu) hst hs h

end Sys2Proof.Proofs.TransitTable
end

section
/-! PROOF. The step of a command, by what the command does itself, and the bytes of the data that its REPLY carries. -/

namespace Sys2Proof.Proofs.Step

open Sys2Proof Sys2Proof.Machine

-- Proofs are elaborated in order: in the joined text the parallel ones would hold more threads at once than the memory limit allows.
set_option Elab.async false
open Sys2Proof.Proofs.TotalsClear (exec_of_commanded)

/-! ### Steps -/

/-- A command's step: its own effect, and the end of the event. -/
theorem exec_of {c : Instr} {s t : State} (h : effect c s = t) (hp : prior c s = s := by rfl) :
    exec c s = .next (finish s t) := by
  rw [exec_effect, hp, h]

/-- The step of a command that its block answers with data that goes with its result, or with none. -/
theorem exec_of_answer {s t : State} {h : CmdHeader} (hc : s.commanded h = true) {c : Instr} {code : Byte}
    {act : State → Answer} {r : ResultCode} {data : List Byte} (hexec : exec c s = answers s (s.command h code act))
    (ha : act s.acked = { state := t, result := r, data := data }) (hr : r = .done ∨ r = .clamped ∨ data = []) :
    exec c s = .next (finish s (t.replied h code r data)) := by
  have hd : replyData r data = data := by
    obtain rfl | rfl | rfl := hr <;> simp [replyData]
  rw [exec_of_commanded hc hexec, ha, hd]

/-- The step of a command that its block refuses: nothing changes but the acknowledgement, and the REPLY has no data (R16). -/
theorem exec_of_refusal {s : State} {h : CmdHeader} (hc : s.commanded h = true) {c : Instr} {code : Byte}
    {act : State → Answer} {r : ResultCode} (hexec : exec c s = answers s (s.command h code act))
    (ha : act s.acked = refuse s.acked r) : exec c s = .next (finish s (s.acked.replied h code r [])) :=
  exec_of_answer hc hexec ha (.inr (.inr rfl))

/-- A frame of a kind other than COMMAND reaches its block in OPERATING. -/
theorem exec_of_takes {s : State} {source : Addr} (ht : s.takes source = true) {c : Instr} {k : Kind} (act : State → State)
    (hexec : exec c s = answers s (s.takeFrom k source act)) : exec c s = .next (finish s (act s.acked)) := by
  rw [hexec, takeFrom_of_takes ht]
  rfl

/-- An own frame reaches its block in OPERATING. -/
theorem exec_of_sends {s : State} {f : Frame} (hs : s.sends f = true) (ho : s.operating = true) {c : Instr}
    (act : State → Addr → Frame → State) (hexec : exec c s = answers s (s.takeOwn f.kind act)) :
    exec c s = .next (finish s (act s.complete s.ownAddr f)) := by
  rw [hexec, takeOwn_of_sends hs ho f.kind rfl]
  rfl

/-- Settles O1: a step is defined so. -/
theorem stepTakesFront : Obligations.StepTakesFront := fun _ _ _ => rfl

/-! ### Bytes -/

theorem bytes16_ofNat (n : Nat) : bytes16 (BitVec.ofNat 16 n) = [BitVec.ofNat 8 (n / 256), BitVec.ofNat 8 n] := by
  have hhigh : (BitVec.ofNat 16 n).extractLsb' 8 8 = BitVec.ofNat 8 (n / 256) := by
    apply BitVec.eq_of_toNat_eq
    simp only [BitVec.extractLsb'_toNat, BitVec.toNat_ofNat, Nat.shiftRight_eq_div_pow]
    omega
  have hlow : (BitVec.ofNat 16 n).extractLsb' 0 8 = BitVec.ofNat 8 n := by
    apply BitVec.eq_of_toNat_eq
    simp only [BitVec.extractLsb'_toNat, BitVec.toNat_ofNat, Nat.shiftRight_eq_div_pow]
    omega
  rw [bytes16, hhigh, hlow]

theorem bytes24_ofNat (n : Nat) :
    bytes24 (BitVec.ofNat 24 n) = [BitVec.ofNat 8 (n / 65536), BitVec.ofNat 8 (n / 256), BitVec.ofNat 8 n] := by
  have hbyte : ∀ i : Nat, i + 8 ≤ 24 → (BitVec.ofNat 24 n).extractLsb' i 8 = BitVec.ofNat 8 (n / 2 ^ i) := by
    intro i hi
    apply BitVec.eq_of_toNat_eq
    simp only [BitVec.extractLsb'_toNat, BitVec.toNat_ofNat, Nat.shiftRight_eq_div_pow]
    rw [← Nat.mod_mod_of_dvd (n % 2 ^ 24 / 2 ^ i) (dvd_refl (2 ^ 8)), Nat.mod_mod]
    have hd : (2 : Nat) ^ 24 = 2 ^ i * 2 ^ (24 - i) := by rw [← Nat.pow_add]; congr 1; omega
    rw [hd, Nat.mod_mul_right_div_self, Nat.mod_mod_of_dvd]
    exact Nat.pow_dvd_pow 2 (by omega)
  rw [bytes24, hbyte 16 (by decide), hbyte 8 (by decide), hbyte 0 (by decide)]
  simp

theorem markByte_eq (b : Bool) : markByte b = if b then 1 else 0 := by cases b <;> rfl

theorem flagByte_two (a b : Bool) : flagByte [a, b] = BitVec.ofNat 8 (a.toNat + 2 * b.toNat) := by
  revert a b; decide

theorem flagByte_three (a b c : Bool) : flagByte [a, b, c] = BitVec.ofNat 8 (a.toNat + 2 * b.toNat + 4 * c.toNat) := by
  revert a b c; decide

/-- The low byte of a small number is that number. -/
theorem toNat_ofNat_small {n : Nat} (h : n < 256) : (BitVec.ofNat 8 n).toNat = n := by
  simp only [BitVec.toNat_ofNat]
  omega

end Sys2Proof.Proofs.Step
end

section
/-! PROOF. The commands that read (R39, R41, R84, R164). -/

namespace Sys2Proof.Proofs.Reads

open Sys2Proof Sys2Proof.Machine Sys2Proof.Proofs.Step

-- Proofs are elaborated in order: in the joined text the parallel ones would hold more threads at once than the memory limit allows.
set_option Elab.async false

section
variable {s : State} {h : CmdHeader} (hc : s.commanded h = true)
include hc

/-! ### TRANSIT-READ -/

/-- TRANSIT-READ of an index and a part in range answers with the data of the record there. -/
theorem exec_transitRead (index part : Byte) (hi : index.toNat < 24) (hp : part.toNat < 2) :
    exec (.transitRead h index part) s =
      .next (finish s (s.acked.replied h codeTransitRead .done
        (transitData s.tt.table index.toNat (decide (part = 1))))) :=
  exec_of_answer hc rfl (if_neg (by omega)) (.inl rfl)

theorem exec_transitRead_outOfRange (index part : Byte) (ho : 24 ≤ index.toNat ∨ 2 ≤ part.toNat) :
    exec (.transitRead h index part) s = .next (finish s (s.acked.replied h codeTransitRead .badOperand [])) :=
  exec_of_refusal hc rfl (if_pos ho)

/-! ### TOTALS-READ and CH-QUERY -/

theorem exec_totalsRead (i : Fin 5) :
    exec (.totalsRead h (BitVec.ofNat 8 i.val)) s =
      .next (finish s (s.acked.replied h codeTotalsRead .done
        (bcdBytes s.tt.totals[i].value ++ [markByte s.tt.totals[i].rolled]))) := by
  have hi : (BitVec.ofNat 8 i.val).toNat = i.val := toNat_ofNat_small (by omega)
  refine exec_of_answer hc rfl ?_ (.inl rfl)
  unfold answerTotalsRead
  simp only [hi, i.isLt, dite_true]
  rfl

theorem exec_totalsRead_outOfRange (counter : Byte) (ho : 5 ≤ counter.toNat) :
    exec (.totalsRead h counter) s = .next (finish s (s.acked.replied h codeTotalsRead .badOperand [])) :=
  exec_of_refusal hc rfl (dif_neg (by omega))

theorem exec_chQuery (k : Chan) :
    exec (.chQuery h (BitVec.ofNat 8 k.val)) s =
      .next (finish s (s.acked.replied h codeChQuery .done (queryData s k))) := by
  have hk : (BitVec.ofNat 8 k.val).toNat = k.val := toNat_ofNat_small (by omega)
  refine exec_of_answer hc rfl ?_ (.inl rfl)
  unfold answerChQuery
  have hfin : Fin.ofNat 4 k.val = k := Fin.ext (Nat.mod_eq_of_lt k.isLt)
  rw [hk, if_pos k.isLt, hfin]
  rfl

theorem exec_chQuery_outOfRange (chan : Byte) (ho : 4 ≤ chan.toNat) :
    exec (.chQuery h chan) s = .next (finish s (s.acked.replied h codeChQuery .badOperand [])) :=
  exec_of_refusal hc rfl (if_neg (by omega))

/-! ### PERMIT-QUERY -/

theorem exec_permitQuery (test : BitVec 16) :
    exec (.permitQuery h test) s =
      .next (finish s (s.acked.replied h codePermitQuery .done
        (bytes16 s.ib.permits ++ [markByte (allGranted s.ib.permits test)]))) :=
  exec_of_answer hc rfl rfl (.inl rfl)

end

/-! ### The data -/

theorem transitHead_high (records high : Nat) : transitHead records high false = BitVec.ofNat 8 (records + 32 * high) := rfl

theorem transitHead_low (records : Nat) (absent : Bool) :
    transitHead records 0 absent = BitVec.ofNat 8 (records + 128 * absent.toNat) := by
  simp [transitHead]

theorem queryData_eq (s : State) (k : Chan) :
    queryData s k =
      [BitVec.ofNat 8 s.ac[k].st.code, BitVec.ofNat 8 s.ac[k].cause.code, BitVec.ofNat 8 (s.ac[k].pulses / 256),
        BitVec.ofNat 8 s.ac[k].pulses,
        BitVec.ofNat 8 ((s.windowOccupied k).toNat + 2 * s.ac[k].blockedMark.toNat)] := by
  unfold queryData
  dsimp only
  rw [bytes16_ofNat, flagByte_two]
  rfl

theorem markByte_allGranted (permits test : BitVec 16) :
    markByte (allGranted permits test) = if permits &&& test = test then 1 else 0 := by
  simp only [markByte_eq, allGranted, decide_eq_true_eq]

/-- Settles O11: each answer with its data written out. -/
theorem readsAnswerAndChangeNothing : Obligations.ReadsAnswerAndChangeNothing := by
  intro s h hc
  have hpart0 : (decide ((0 : Byte) = 1)) = false := by decide
  have hpart1 : (decide ((1 : Byte) = 1)) = true := by decide
  have hlt0 : (0 : Byte).toNat < 2 := by decide
  have hlt1 : (1 : Byte).toNat < 2 := by decide
  refine ⟨fun index r hr hi => ⟨?_, ?_⟩, fun index hr hi => ⟨?_, ?_⟩, exec_transitRead_outOfRange hc, fun i => ?_,
    exec_totalsRead_outOfRange hc, fun k => ?_, exec_chQuery_outOfRange hc, fun test => ?_⟩
  · rw [exec_transitRead hc index 0 hi hlt0, hpart0]
    simp only [transitData, hr, positionData, transitHead_high, bytes24_ofNat, List.cons_append, List.nil_append]
  · rw [exec_transitRead hc index 1 hi hlt1, hpart1]
    simp only [transitData, hr, marksData, transitHead_high, Nat.mul_zero, Nat.add_zero]
  · rw [exec_transitRead hc index 0 hi hlt0, hpart0]
    simp only [transitData, hr, transitHead_low, Bool.toNat_true, Nat.mul_one]
  · rw [exec_transitRead hc index 1 hi hlt1, hpart1]
    simp only [transitData, hr, transitHead_low, Bool.toNat_true, Nat.mul_one]
  · rw [exec_totalsRead hc i, markByte_eq]
    rfl
  · rw [exec_chQuery hc k, queryData_eq]
  · rw [exec_permitQuery hc test, markByte_allGranted]
    rfl

end Sys2Proof.Proofs.Reads
end

section
/-! PROOF. Timers whose expiry does one thing, the encoder's pulses, the monitor block's timers and the reset (R26, R43 to R46, R109,
R110, R123, R130, R148, R154, R155, R161, R176, R178). -/

namespace Sys2Proof.Proofs.Expiries

open Sys2Proof Sys2Proof.Machine Sys2Proof.Proofs.Event Sys2Proof.Proofs.Step Sys2Proof.Proofs.Alarm

-- Proofs are elaborated in order: in the joined text the parallel ones would hold more threads at once than the memory limit allows.
set_option Elab.async false

/-! ### Timers -/

/-- An entry of a key survives where it has just been refreshed. -/
theorem survives_eq (e : DemandEntry) (station : Nat) (loop : LoopIx) :
    (!e.keyed station loop || e.fresh) =
      !(decide (e.station = station) && decide (e.loop = loop) && decide (e.age < 3000)) := by
  have hfresh : e.fresh = !decide (e.age < 3000) := by
    rw [DemandEntry.fresh, ← decide_not]
    exact decide_eq_decide.2 Nat.not_lt.symm
  simp only [DemandEntry.keyed, hfresh, Bool.not_and]

/-- Settles O14: each expiry's own change, where its timer runs. -/
theorem timersExpire : Obligations.TimersExpire := by
  intro s
  refine ⟨fun h => exec_of (if_pos h), fun h => exec_of (if_pos h), fun h => exec_of (if_pos h), fun h => exec_of (if_pos h),
    fun h => exec_of (if_pos h), fun h => exec_of (if_pos h), fun h => exec_of (if_pos h), fun h => exec_of (if_pos h),
    fun h => exec_of (if_pos h), fun station loop => exec_of ?_⟩
  show onEntryAgeExpiry station loop s = _
  unfold onEntryAgeExpiry
  simp only [survives_eq]

/-! ### The encoder -/

/-- Settles O20: by whether the station counts pulses. -/
theorem speedIsMeasured : Obligations.SpeedIsMeasured := by
  intro s
  refine ⟨fun ha hs => exec_of (if_pos (by rw [ha, hs]; rfl)), fun hs => exec_of (if_neg (by simp [hs])), fun h => ?_⟩
  exact exec_of (if_pos h)

/-! ### The monitor block's timers -/

theorem alarmed_iff (p : Point) : p.alarmed = true ↔ p.st = .raised ∨ p.st = .clearedUnacked := by
  unfold Point.alarmed
  cases p.st <;> simp

/-- Settles O41: each expiry's own change, where its timer runs. -/
theorem monitorTimersExpire : Obligations.MonitorTimersExpire := by
  intro s
  refine ⟨fun gain0 gain1 ha ht => exec_of (if_pos ⟨ha, ht⟩), fun hgap => exec_of ?_, fun ho ht => exec_of (if_pos ⟨ho, ht⟩)⟩
  have hany : s.anyAlarmed = true ↔ ∃ i : Ix8, s.mb.points[i].st = .raised ∨ s.mb.points[i].st = .clearedUnacked := by
    rw [anyAlarmed_iff]
    exact exists_congr fun i => alarmed_iff _
  show onGapTimerExpiry s = _
  unfold onGapTimerExpiry
  simp only [hgap, if_true, hany]

/-! ### The reset -/

/-- LOADING begins with the read of the image, or ends in UNCONFIGURED where the straps give no address (R178). -/
theorem beginLoading_of_valid {s : State} (h0 : s.pins.straps ≠ 0) (h31 : s.pins.straps ≠ 31) :
    s.beginLoading = { s with cl.address := some s.pins.straps, cl.readTimer := some 100, cl.busTimer := some 10 } := by
  unfold State.beginLoading
  rw [if_neg (not_or.2 ⟨h0, h31⟩)]
  rfl

theorem beginLoading_of_invalid {s : State} (h : s.pins.straps = 0 ∨ s.pins.straps = 31) (ha : s.cl.address = none) :
    s.beginLoading =
      { s with
        cl.station := .unconfigured, cl.fault := .addressBad, cl.offending := 0, cl.readTimer := none
        cl.busTimer := none, cl.retryTimer := none, li.filter := none, mb.alarm := .asserted } := by
  unfold State.beginLoading State.enterUnconfigured
  simp only [h, if_true, ha, Option.isSome_none, Bool.false_eq_true, if_false]

/-- A release of a held cause while the other is held, and of the last one. -/
theorem onResetRelease_eq {s : State} (cause : HeldCause) (straps : BitVec 5) (h : s.holds cause = true) :
    onResetRelease cause straps s =
      if (State.release { s with pins.straps := straps } cause).held then State.release { s with pins.straps := straps } cause
      else (State.release { s with pins.straps := straps } cause).beginLoading := if_pos h

/-- The release of the last held cause begins LOADING. -/
theorem release_last {s : State} (straps : BitVec 5) (h : s.cl.heldPower ≠ s.cl.heldPin) :
    onResetRelease (if s.cl.heldPower then .power else .pin) straps s =
      State.beginLoading { s with pins.straps := straps, cl.heldPower := false, cl.heldPin := false } := by
  cases hp : s.cl.heldPower with
  | true =>
    have hn : s.cl.heldPin = false := by cases hq : s.cl.heldPin <;> simp_all
    have he : State.release { s with pins.straps := straps } .power =
        { s with pins.straps := straps, cl.heldPower := false, cl.heldPin := false } := by simp only [State.release, ← hn]
    rw [if_pos rfl, onResetRelease_eq .power straps hp, he]
    rfl
  | false =>
    have hn : s.cl.heldPin = true := by cases hq : s.cl.heldPin <;> simp_all
    have he : State.release { s with pins.straps := straps } .pin =
        { s with pins.straps := straps, cl.heldPower := false, cl.heldPin := false } := by simp only [State.release, ← hp]
    rw [if_neg (by decide), onResetRelease_eq .pin straps hn, he]
    rfl

/-- Settles O48: by which causes are held, and by the straps. -/
theorem partIsReset : Obligations.PartIsReset := by
  refine ⟨fun s => ⟨exec_of rfl, exec_of rfl⟩, fun s straps => ⟨fun hp hq => ⟨exec_of ?_, exec_of ?_⟩, fun h => ⟨?_, ?_⟩⟩⟩
  · exact (onResetRelease_eq .power straps hp).trans (if_pos (by simp [State.release, State.held, hq]))
  · exact (onResetRelease_eq .pin straps hq).trans (if_pos (by simp [State.release, State.held, hp]))
  · exact fun h0 h31 => exec_of ((release_last straps h).trans (beginLoading_of_valid h0 h31))
  · exact fun hs ha => exec_of ((release_last straps h).trans (beginLoading_of_invalid hs ha))

/-! ### The machine right after reset -/

/-- Settles O54: the values after reset, read off. -/
theorem resetHolds : Obligations.ResetHolds := by
  unfold Obligations.ResetHolds
  refine ⟨rfl, rfl, rfl, rfl, rfl, rfl, rfl, rfl, rfl, rfl, rfl, rfl, rfl, by decide, by decide, by decide, rfl, rfl, rfl, rfl,
    rfl, by decide, rfl, rfl, rfl, rfl, rfl, rfl, rfl, rfl, rfl, rfl, ?_, by decide, ?_, by decide, by decide, by decide,
    by decide, by decide, ?_⟩
  · exact ⟨fun _ => rfl, by decide, by decide, rfl⟩
  · exact ⟨Nat.zero_le _, .nil, fun r hr => (by cases hr), fun _ => rfl⟩
  · exact ⟨by decide, by decide, by decide, fun _ => reset_not_alarmed⟩

end Sys2Proof.Proofs.Expiries
end

section
/-! PROOF. The tracker's measurement, its frames and its interval (R25 to R34, R44 to R48). -/

namespace Sys2Proof.Proofs.Tracking

open Sys2Proof Sys2Proof.Machine Sys2Proof.Proofs.Step

-- Proofs are elaborated in order: in the joined text the parallel ones would hold more threads at once than the memory limit allows.
set_option Elab.async false

/-! ### The entry measurement -/

/-- The trailing edge that ends an entry measurement (R26, R27). -/
theorem onEntryTrailingEdge_of_measuring {s : State} (ha : s.active = true) (hs : s.entrySource = true)
    (hb : s.pins.bsens = true) (hm : s.tt.entryActive = true) :
    onEntryTrailingEdge s =
      if s.tt.entryAcc / 1000 < 10 then { s with pins.bsens := false, tt.entryActive := false }
      else if s.tt.entryAcc / 1000 ≤ 650 then
        State.announce { s with pins.bsens := false, tt.entryActive := false } (s.tt.entryAcc / 1000)
      else
        State.announce
          { s with pins.bsens := false, tt.entryActive := false, tt.longBoard := true, tt.longTimer := some 5000 } 650 := by
  unfold onEntryTrailingEdge
  simp only [hb, ha, hs, hm, Bool.and_self, if_true]

/-- Settles O13: by the measured length, and by whether a measurement begins or ends at all. -/
theorem entryIsMeasured : Obligations.EntryIsMeasured := by
  intro s
  refine ⟨fun tag ha hs hb => exec_of ?_, fun ha hs hb hm => ⟨fun hn => exec_of ?_, fun h10 h650 => exec_of ?_,
    fun h650 => exec_of ?_⟩, fun ha hb tag => exec_of ?_, fun hb hn => exec_of ?_⟩
  · show onEntryLeadingEdge tag s = _
    simp only [onEntryLeadingEdge, hb, ha, hs, Bool.and_self, if_true, Bool.false_eq_true, if_false]
  · exact (onEntryTrailingEdge_of_measuring ha hs hb hm).trans (if_pos hn)
  · refine (onEntryTrailingEdge_of_measuring ha hs hb hm).trans ?_
    rw [if_neg (by omega), if_pos h650]
    rfl
  · refine (onEntryTrailingEdge_of_measuring ha hs hb hm).trans ?_
    rw [if_neg (by omega), if_neg (by omega)]
    rfl
  · show onEntryLeadingEdge tag s = _
    simp only [onEntryLeadingEdge, hb, ha, Bool.false_and, Bool.false_eq_true, if_false]
  · show onEntryTrailingEdge s = _
    have hoff : (s.active && s.entrySource && s.tt.entryActive) = false := by
      obtain hn | hn := hn <;> simp [hn]
    simp only [onEntryTrailingEdge, hb, hoff, if_true, Bool.false_eq_true, if_false]

/-! ### ENTRY frames -/

theorem entryArrives_of_valid {s : State} {c : EntryContent} (hid : c.id ≠ 0) (h10 : 10 ≤ c.length.toNat)
    (h650 : c.length.toNat ≤ 650) :
    s.entryArrives c =
      (s.removeId c.id).create (freshRec c.id c.length.toNat (tagOf c.tag) (1000 * c.length.toNat) .entry false) :=
  if_neg (by simp only [hid, false_or]; omega)

theorem entryArrives_of_invalid {s : State} {c : EntryContent} (h : c.id = 0 ∨ c.length.toNat < 10 ∨ 650 < c.length.toNat) :
    s.entryArrives c = s := if_pos h

theorem removeId_of_absent {s : State} {id : Byte} (h : ∀ r ∈ s.tt.table, r.id ≠ id) : s.removeId id = s :=
  if_neg fun hany => by
    obtain ⟨r, hr, he⟩ := List.any_eq_true.1 hany
    exact h r hr (by simpa using he)

theorem removeId_of_present {s : State} {id : Byte} {r : BoardRec} (hr : r ∈ s.tt.table) (he : r.id = id) :
    s.removeId id =
      State.evaluate { s with
        tt.table := s.tt.table.filter fun x => decide (x.id ≠ id)
        tt.overflow := s.tt.overflow && !decide (s.tt.table.length = 24) } :=
  if_pos (List.any_eq_true.2 ⟨r, hr, by simpa using he⟩)

/-- Settles O15: by the id, the length and whether the id is held. -/
theorem entryCreatesRecord : Obligations.EntryCreatesRecord := by
  intro s c
  refine ⟨fun hid h10 h650 => ⟨tagOf c.tag, fun h8 => if_pos h8, fun source ht => ?_, fun ho hs => ?_⟩,
    fun hbad source ht => ?_, removeId_of_absent, fun r hr he => removeId_of_present hr he⟩
  · rw [exec_of_takes ht (fun t => t.entryArrives c) rfl, entryArrives_of_valid hid h10 h650]
  · rw [exec_of_sends hs ho ownEntryArrives rfl]
    show Host.Outcome.next (finish s (s.complete.entryArrives c)) = _
    rw [entryArrives_of_valid hid h10 h650]
  · rw [exec_of_takes ht (fun t => t.entryArrives c) rfl, entryArrives_of_invalid hbad]

/-! ### SPEED frames -/

theorem speedArrives_eq (s : State) (source : Addr) (v : BitVec 16) :
    s.speedArrives source v =
      { s with
        tt.speed := min 1000 v.toNat, tt.stale := false, tt.staleTimer := some 2000, tt.source := some source
        tt.sourceTimer := some 1000
        tt.conflict := s.tt.conflict || (s.tt.sourceTimer.isSome && decide (s.tt.source ≠ some source))
        tt.conflictTimer :=
          if (s.tt.sourceTimer.isSome && decide (s.tt.source ≠ some source)) = true then some 1000
          else s.tt.conflictTimer } := rfl

/-- Settles O21: a SPEED arrives alike from the line and from the part itself. -/
theorem speedIsTaken : Obligations.SpeedIsTaken := by
  intro s source v
  refine ⟨fun ht => ?_, fun ho hs => ?_⟩
  · rw [exec_of_takes ht (fun t => t.speedArrives source v) rfl, speedArrives_eq]
  · rw [exec_of_sends hs ho ownSpeedArrives rfl]
    show Host.Outcome.next (finish s (s.complete.speedArrives s.ownAddr v)) = _
    rw [speedArrives_eq]

/-! ### The tracking interval -/

/-- Settles O22: the advance is written out. -/
theorem trackingIntervalAdvances : Obligations.TrackingIntervalAdvances := by
  intro s ha ht
  exact exec_of (if_pos ⟨ha, ht⟩)

end Sys2Proof.Proofs.Tracking
end

section
/-! PROOF. Sightings: the edges of the own sensor and the SIGHT frames (R29 to R34). -/

namespace Sys2Proof.Proofs.Sights

open Sys2Proof Sys2Proof.Machine Sys2Proof.Proofs.Step

-- Proofs are elaborated in order: in the joined text the parallel ones would hold more threads at once than the memory limit allows.
set_option Elab.async false

/-! ### The own sensor -/

/-- The measurement of a sighting begins (R29). -/
def sightBegins (s : State) : State := { s with tt.sightActive := true, tt.sightAcc := 0 }

section
variable {s : State} (ha : s.active = true) (hsensor : s.cl.image.station.sensor = true)
  (hentry : s.cl.image.station.entrySource = false)
include ha hsensor hentry

/-- A leading edge in a station that reports sightings matches a record, or none, and begins the measurement. -/
theorem onSightLeadingEdge_of_sights (hb : s.pins.bsens = false) :
    onSightLeadingEdge s = sightBegins (State.sightLead { s with pins.bsens := true }) := by
  unfold onSightLeadingEdge
  simp only [hb, ha, State.sights, hsensor, hentry, Bool.not_false, Bool.and_self, Bool.false_eq_true, if_false, if_true]
  rfl

/-- A trailing edge in a station that reports sightings ends the measurement, and matches a record, or none. -/
theorem onSightTrailingEdge_of_sights (hb : s.pins.bsens = true) (hm : s.tt.sightActive = true) :
    onSightTrailingEdge s =
      State.sightTrail { s with pins.bsens := false, tt.sightActive := false } (measuredLength s.tt.sightAcc) := by
  unfold onSightTrailingEdge
  simp only [hb, ha, State.sights, hsensor, hentry, hm, Bool.not_false, Bool.and_self, if_true]

end

/-- What a trailing edge corrects: a record of origin ENTRY keeps its length, and any other takes the one measured. -/
theorem correct_relength {s : State} {i : Nat} {r : BoardRec} (hr : s.tt.table[i]? = some r) (p m : Nat) :
    s.correct i (p + 1000 * (r.relength m).length) (fun r => r.relength m) =
      if r.origin = .entry then s.correct i (p + 1000 * r.length) fun x => x
      else s.correct i (p + 1000 * m) fun x => { x with length := m } := by
  by_cases ho : r.origin = .entry
  · have he : r.relength m = r := if_pos ho
    rw [if_pos ho, he]
    exact correct_congr hr he
  · have he : r.relength m = { r with length := m } := if_neg ho
    rw [if_neg ho, he]
    exact correct_congr hr he

theorem sightLead_of_none {s : State} (h : ∀ r ∈ s.tt.table, s.leadCandidate r = false) :
    s.sightLead = s.report 0 false 0 := by
  unfold State.sightLead
  rw [nearest_none h]

theorem sightLead_of_nearest {s : State} {i : Nat} {r : BoardRec}
    (h : IsNearest s.tt.table s.leadCandidate (fun x => distance x.lead s.sensor) i r) :
    s.sightLead = (s.correct i s.sensor fun x => { x with sighted := true }).report r.id false 0 := by
  unfold State.sightLead
  rw [nearest_some h]

/-- A candidate for a trailing edge of measured length `m` (R31). -/
def trailCandidate (s : State) (m : Nat) (r : BoardRec) : Bool := r.sighted && decide (s.trailDistance m r ≤ s.capture)

theorem sightTrail_of_none {s : State} {m : Nat} (h : ∀ r ∈ s.tt.table, trailCandidate s m r = false) :
    s.sightTrail m = s := by
  unfold State.sightTrail
  have hn : nearest (fun r => r.sighted && decide (s.trailDistance m r ≤ s.capture)) (s.trailDistance m) s.tt.table = none :=
    nearest_none h _
  rw [hn]

theorem sightTrail_of_nearest {s : State} {m i : Nat} {r : BoardRec}
    (h : IsNearest s.tt.table (trailCandidate s m) (s.trailDistance m) i r) :
    s.sightTrail m =
      (if r.origin = .entry then s.correct i (s.sensor + 1000 * r.length) fun x => x
        else s.correct i (s.sensor + 1000 * m) fun x => { x with length := m }).report r.id true m := by
  have hn : nearest (fun r => r.sighted && decide (s.trailDistance m r ≤ s.capture)) (s.trailDistance m) s.tt.table =
      some (i, r) := nearest_some h
  unfold State.sightTrail
  rw [hn]
  dsimp only
  rw [correct_relength h.1]

theorem table_cl {s t : State} (h : ByTable s t) : t.cl = s.cl := by
  rw [ByTable] at h
  rw [h]

theorem report_eq {s t : State} (h : t.cl = s.cl) (id : Byte) (trail : Bool) (m : Nat) :
    t.report id trail m =
      t.enqueue (.sight ⟨id, trail, BitVec.ofNat 23 s.cl.image.station.sensorPosition, BitVec.ofNat 16 m⟩) := by
  unfold State.report State.sensor
  rw [h]

/-- Settles O18: by whether a candidate is found. -/
theorem ownSensorCorrects : Obligations.OwnSensorCorrects := by
  intro s ha hsensor hentry p w leadOk u
  refine ⟨fun hb => ⟨fun hn => ?_, fun i r hi => ?_⟩, fun hb hm => ?_⟩
  · have hlead := sightLead_of_none (s := u) hn
    refine exec_of ((onSightLeadingEdge_of_sights ha hsensor hentry hb).trans ?_)
    rw [hlead]
    rfl
  · have hlead := sightLead_of_nearest (s := u) hi
    refine exec_of ((onSightLeadingEdge_of_sights ha hsensor hentry hb).trans ?_)
    have hreport : u.sightLead =
        (u.correct i p fun x => { x with sighted := true }).enqueue (.sight ⟨r.id, false, BitVec.ofNat 23 p, 0⟩) :=
      hlead.trans (report_eq (table_cl (correct_within u _ _ _)) _ _ _)
    rw [hreport]
    rfl
  · intro m d trailOk v
    refine ⟨fun hn => ?_, fun i r hi => ?_⟩
    · have htrail := sightTrail_of_none (s := v) (m := measuredLength s.tt.sightAcc) hn
      exact exec_of ((onSightTrailingEdge_of_sights ha hsensor hentry hb hm).trans htrail)
    · have htrail := sightTrail_of_nearest (s := v) (m := measuredLength s.tt.sightAcc) hi
      refine exec_of ((onSightTrailingEdge_of_sights ha hsensor hentry hb hm).trans ?_)
      rw [htrail, report_eq (s := v)]
      · rfl
      · split
        · exact table_cl (correct_within v _ _ _)
        · exact table_cl (correct_within v _ _ _)

/-! ### SIGHT frames -/

/-- A record of a sighting holds no marks and no tag. -/
theorem newRec_eq (id : Byte) (length lead : Nat) (origin : Origin) (sighted : Bool) :
    newRec id length lead origin sighted = freshRec id length 0 lead origin sighted := rfl

section
variable {s : State} {id : Byte} {p m : Nat}

/-- A LEAD of the unnamed record or of an id that no record holds creates one (R33). -/
theorem peerLead_of_absent (h : id = 0 ∨ ∀ r ∈ s.tt.table, r.id ≠ id) :
    s.peerLead id p = s.create (freshRec id 10 0 p .peerSight false) := by
  unfold State.peerLead
  obtain rfl | hn := h
  · split <;> rfl
  · rw [findId_none hn]
    rfl

/-- A LEAD of an id that a record holds corrects it within the capture window (R33). -/
theorem peerLead_of_held {a b : List BoardRec} {r : BoardRec} (h0 : id ≠ 0) (ht : s.tt.table = a ++ r :: b) (hr : r.id = id)
    (ha : ∀ x ∈ a, x.id ≠ id) :
    s.peerLead id p = if distance r.lead p ≤ s.capture then s.correct a.length p fun x => x else s := by
  unfold State.peerLead
  rw [ht, findId_split hr ha]
  exact if_neg h0

theorem peerTrail_of_invalid (h : m < 10 ∨ 650 < m) : s.peerTrail id p m = s := if_pos h

/-- A TRAIL of an id that a record holds corrects it within the capture window (R34). -/
theorem peerTrail_of_held {a b : List BoardRec} {r : BoardRec} (h10 : 10 ≤ m) (h650 : m ≤ 650) (h0 : id ≠ 0)
    (ht : s.tt.table = a ++ r :: b) (hr : r.id = id) (ha : ∀ x ∈ a, x.id ≠ id) :
    s.peerTrail id p m =
      if distance r.lead ((p + 1000 * m : Nat) : Int) ≤ s.capture then
        (if r.origin = .entry then s.correct a.length (p + 1000 * r.length) fun x => x
        else s.correct a.length (p + 1000 * m) fun x => { x with length := m })
      else s := by
  have hget : s.tt.table[a.length]? = some r := by simp [ht]
  have hfind : findId id s.tt.table = some (a.length, r) := by rw [ht]; exact findId_split hr ha
  unfold State.peerTrail
  dsimp only
  rw [if_neg (by omega), if_neg h0, hfind]
  dsimp only
  rw [correct_relength hget]

/-- A TRAIL of an id that no record holds creates one (R34). -/
theorem peerTrail_of_absent (h10 : 10 ≤ m) (h650 : m ≤ 650) (h0 : id ≠ 0) (hn : ∀ r ∈ s.tt.table, r.id ≠ id) :
    s.peerTrail id p m = s.create (freshRec id m 0 (p + 1000 * m) .peerSight false) := by
  unfold State.peerTrail
  dsimp only
  rw [if_neg (by omega), if_neg h0, findId_none hn]
  rfl

/-- A candidate of id 0 for a TRAIL of expected lead `e` (R34). -/
def unnamedNear (s : State) (e : Nat) (r : BoardRec) : Bool := decide (r.id = 0) && decide (distance r.lead e ≤ s.capture)

/-- A TRAIL of the unnamed record corrects the nearest one, or creates one where none is near (R34). -/
theorem peerTrail_of_unnamed (h10 : 10 ≤ m) (h650 : m ≤ 650) :
    s.peerTrail 0 p m =
      match nearest (unnamedNear s (p + 1000 * m)) (fun r => distance r.lead ((p + 1000 * m : Nat) : Int)) s.tt.table with
      | some x => s.correct x.1 (p + 1000 * m) fun r => { r with length := m }
      | none => s.create (freshRec 0 m 0 (p + 1000 * m) .peerSight false) := by
  unfold State.peerTrail
  dsimp only
  rw [if_neg (by omega), if_pos rfl]
  rfl

end

theorem held_false {table : List BoardRec} {id : Byte} (h : (table.any fun r => decide (r.id = id)) = false) :
    ∀ r ∈ table, r.id ≠ id := by
  simpa using h

/-- The own SIGHT: one of edge kind LEAD and id 0 creates the unnamed record (R30, R32). -/
theorem exec_ownSightTaken {s : State} {c : SightContent} (ho : s.operating = true) (hs : s.sends (.sight c) = true) :
    exec .ownSightTaken s =
      .next (finish s
        (if !c.trail ∧ c.id = 0 then s.complete.create (freshRec 0 10 0 c.position.toNat .ownSight true) else s.complete)) :=
  exec_of_sends hs ho ownSightArrives rfl

/-- Settles O19: by the id, the place of its record, and the distances. -/
theorem sightsTaken : Obligations.SightsTaken := by
  intro s
  refine ⟨fun c ho hs => ⟨fun htrail hid => ?_, fun hno => ?_⟩, fun source id position measured ht => ?_⟩
  · rw [exec_ownSightTaken ho hs, if_pos ⟨by rw [htrail]; rfl, hid⟩]
  · rw [exec_ownSightTaken ho hs, if_neg]
    rintro ⟨hl, hid⟩
    obtain hno | hno := hno
    · rw [hno] at hl
      cases hl
    · exact hno hid
  · intro p m w held
    have hlead := exec_of_takes (c := .peerSightLeadTaken source id position 0) ht (fun t => t.peerLead id p) rfl
    have htrail := exec_of_takes (c := .peerSightTrailTaken source id position measured) ht (fun t => t.peerTrail id p m) rfl
    refine ⟨fun hnew => ?_, fun a b r h0 htab hr ha => ⟨fun hin => ?_, fun hout => ?_, fun h10 h650 hin => ?_,
      fun h10 h650 hout => ?_⟩, fun h10 h650 h0 hn => ?_, fun h10 h650 h0 => ?_, fun hbad => ?_⟩
    · rw [hlead, peerLead_of_absent (s := s.acked) (hnew.imp_right held_false)]
    · rw [hlead, peerLead_of_held (s := s.acked) h0 htab hr ha]
      exact congrArg (fun t => Host.Outcome.next (finish s t)) (if_pos hin)
    · rw [hlead, peerLead_of_held (s := s.acked) h0 htab hr ha]
      exact congrArg (fun t => Host.Outcome.next (finish s t)) (if_neg (Nat.not_le.2 hout))
    · rw [htrail, peerTrail_of_held (s := s.acked) h10 h650 h0 htab hr ha]
      exact congrArg (fun t => Host.Outcome.next (finish s t)) (if_pos hin)
    · rw [htrail, peerTrail_of_held (s := s.acked) h10 h650 h0 htab hr ha]
      exact congrArg (fun t => Host.Outcome.next (finish s t)) (if_neg (Nat.not_le.2 hout))
    · rw [htrail, peerTrail_of_absent (s := s.acked) h10 h650 h0 (held_false hn)]
    · intro e near
      subst h0
      have hun := peerTrail_of_unnamed (s := s.acked) (p := p) h10 h650
      refine ⟨fun hn => ?_, fun i r hi => ?_⟩
      · have hnone : nearest (unnamedNear s.acked (p + 1000 * m))
            (fun r => distance r.lead ((p + 1000 * m : Nat) : Int)) s.acked.tt.table = none := nearest_none hn _
        rw [htrail, hun, hnone]
      · have hsome : nearest (unnamedNear s.acked (p + 1000 * m))
            (fun r => distance r.lead ((p + 1000 * m : Nat) : Int)) s.acked.tt.table = some (i, r) := nearest_some hi
        rw [htrail, hun, hsome]
    · rw [htrail, peerTrail_of_invalid hbad]

end Sys2Proof.Proofs.Sights
end

section
/-! PROOF. Queueing a frame: accepted, coalesced, placed, or evicting another (R8 to R12). -/

namespace Sys2Proof.Proofs.Queueing

open Sys2Proof Sys2Proof.Machine

-- Proofs are elaborated in order: in the joined text the parallel ones would hold more threads at once than the memory limit allows.
set_option Elab.async false

/-! ### What is accepted, and what coalesces -/

theorem coalesces_iff (f g : Frame) :
    coalesces f g = true ↔
      (∃ x y : StateContent, f = .state x ∧ g = .state y) ∨
        ∃ x y : DemandContent, f = .demand x ∧ g = .demand y ∧ x.loop = y.loop := by
  cases f <;> cases g <;> simp [coalesces]

theorem accepts_iff (s : State) :
    s.accepts = true ↔
      s.li.line = .active ∧ (s.cl.station = .unconfigured ∨ s.cl.station = .joining ∨ s.cl.station = .operating) := by
  unfold State.accepts
  cases s.cl.station <;> simp

theorem accepts_acked (s : State) : s.acked.accepts = s.accepts := rfl

theorem not_accepts {s : State} (h : s.li.line = .mute ∨ s.cl.station = .loading ∨ s.cl.station = .conflict) :
    s.accepts = false := by
  refine Bool.eq_false_iff.2 fun ha => ?_
  obtain ⟨hl, hs⟩ := (accepts_iff s).1 ha
  obtain h | h | h := h
  · rw [hl] at h; cases h
  · rw [h] at hs; simp at hs
  · rw [h] at hs; simp at hs

/-- A frame that is not accepted is dropped; where it is the REPLY of a pending restart, the reset falls due (R12, R177). -/
theorem enqueueFor_of_dropped {s : State} (h : s.accepts = false) (f : Frame) (restart : Bool) :
    s.enqueueFor f restart = { s with cl.resetDue := s.cl.resetDue || restart } := by
  unfold State.enqueueFor
  rw [h]
  rfl

theorem enqueue_of_dropped {s : State} (h : s.accepts = false) (f : Frame) : s.enqueue f = s := by
  rw [State.enqueue, enqueueFor_of_dropped h, Bool.or_false]

/-- A frame that coalesces takes the place of the one queued (R9). -/
theorem enqueue_of_coalescing {s : State} {f : Frame} {a b : List QEntry} {e : QEntry} (ha : s.accepts = true)
    (hq : s.li.queue = a ++ e :: b) (he : coalesces f e.frame = true) (hn : ∀ x ∈ a ++ b, coalesces f x.frame = false) :
    s.enqueue f = { s with li.queue := a ++ e.replace f :: b } := by
  have hmap : ∀ l : List QEntry, (∀ x ∈ l, coalesces f x.frame = false) →
      l.map (fun x => if coalesces f x.frame then x.replace f else x) = l := fun l hl =>
    (List.map_congr_left fun x hx => if_neg (Bool.eq_false_iff.1 (hl x hx))).trans (List.map_id' l)
  have hany : (s.li.queue.any fun x => coalesces f x.frame) = true :=
    List.any_eq_true.2 ⟨e, hq ▸ List.mem_append_right a List.mem_cons_self, he⟩
  unfold State.enqueue State.enqueueFor
  rw [if_pos ha, if_pos hany, hq, List.map_append, List.map_cons, if_pos he, hmap a fun x hx => hn x (List.mem_append_left b hx),
    hmap b fun x hx => hn x (List.mem_append_right a hx)]

/-- Settles O8: by whether the line interface accepts, and by whether a queued frame coalesces. -/
theorem queueAcceptsOrCoalesces : Obligations.QueueAcceptsOrCoalesces :=
  ⟨coalesces_iff, fun s f => ⟨accepts_iff s, fun h => enqueue_of_dropped (not_accepts h) f,
    fun _ _ _ ha hq he hn => enqueue_of_coalescing ha hq he hn⟩⟩

/-! ### Places -/

theorem lose_eq (e : QEntry) :
    e.lose =
      { e with
        mark := match e.frame with
          | .state _ => true
          | _ => e.mark
        flight := e.flight.map fun x =>
          { x with
            mark := match x.frame with
              | .state _ => true
              | _ => x.mark } } := by
  have hmark : ∀ (m : Bool) (f : Frame), (m || isStateFrame f) = match f with
      | .state _ => true
      | _ => m := by
    intro m f
    cases f <;> simp [isStateFrame]
  unfold QEntry.lose
  simp only [hmark]

theorem rank_eq (f : Frame) :
    f.rank =
      match f with
      | .stop _ => 0
      | .alarm _ => 1
      | .sight _ => 2
      | .entry _ => 3
      | .speed _ => 4
      | .reply _ => 6
      | .demand _ => 7
      | .state _ => 8
      | .join _ => 9 := by
  cases f <;> rfl

/-- The most recently queued idle entry, where all behind it are in flight. -/
theorem lastIdle_split {a b : List QEntry} {v : QEntry} (hv : v.flight = none) (hb : ∀ e ∈ b, e.flight.isSome = true) :
    lastIdle (a ++ v :: b) = some v ∧ dropLastIdle (a ++ v :: b) = a ++ b := by
  have hnone : ∀ e ∈ b.reverse, e.flight.isNone = false := fun e he => by
    rw [Option.isNone_eq_false_iff]
    exact hb e (List.mem_reverse.1 he)
  have hrev : (a ++ v :: b).reverse = b.reverse ++ v :: a.reverse := by simp
  have hvn : v.flight.isNone = true := by simp [hv]
  constructor
  · unfold lastIdle
    rw [hrev, List.find?_append, List.find?_eq_none.2 fun e he => by simp [hnone e he]]
    simp [hvn]
  · unfold dropLastIdle
    rw [hrev, List.eraseP_append_right _ fun e he => by simp [hnone e he], List.eraseP_cons_of_pos (p := fun e : QEntry => e.flight.isNone) hvn]
    simp

section
variable {s : State} {e : QEntry}

/-- With room in the queue an entry takes its place behind those that precede it (R8). -/
theorem place_of_room {a b : List QEntry} (hq : s.li.queue = a ++ b) (hroom : (a ++ b).length < 16)
    (ha : ∀ x ∈ a, x.precedes e = true) (hb : ∀ x ∈ b, x.precedes e = false) :
    s.place e = { s with li.queue := a ++ e :: b } := by
  unfold State.place
  rw [hq, if_pos hroom, insertByRank_append e a b ha hb]

/-- In a full queue an entry that does not outrank the one it is compared with is discarded (R10). -/
theorem place_of_outranked {a b : List QEntry} {v : QEntry} (hq : s.li.queue = a ++ v :: b) (hfull : 16 ≤ (a ++ v :: b).length)
    (hv : v.flight = none) (hb : ∀ x ∈ b, x.flight.isSome = true) (hr : v.frame.rank ≤ e.frame.rank) :
    s.place e = { s with li.queue := s.li.queue.map QEntry.lose, li.txqLost := true } := by
  unfold State.place
  rw [hq, if_neg (Nat.not_lt.2 hfull), (lastIdle_split hv hb).1]
  exact if_neg (Nat.not_lt.2 hr)

/-- In a full queue an entry that outranks the one it is compared with evicts it (R10, R177). -/
theorem place_of_evicting {a b p q : List QEntry} {v : QEntry} (hq : s.li.queue = a ++ v :: b)
    (hfull : 16 ≤ (a ++ v :: b).length) (hv : v.flight = none) (hb : ∀ x ∈ b, x.flight.isSome = true)
    (hr : e.frame.rank < v.frame.rank) (hpq : a ++ b = p ++ q) (hpre : ∀ x ∈ p, x.precedes e = true)
    (hpost : ∀ x ∈ q, x.precedes e = false) :
    s.place e =
      { s with
        li.queue := (p ++ e :: q).map QEntry.lose, li.txqLost := true
        cl.resetDue := s.cl.resetDue || v.restart } := by
  unfold State.place
  rw [hq, if_neg (Nat.not_lt.2 hfull), (lastIdle_split hv hb).1, (lastIdle_split hv hb).2, hpq,
    insertByRank_append e p q hpre hpost]
  exact if_pos hr

end

/-- A frame that is accepted and does not coalesce is placed. -/
theorem enqueueFor_of_placed {s : State} {f : Frame} (ha : s.accepts = true) (hn : ∀ e ∈ s.li.queue, coalesces f e.frame = false)
    (restart : Bool) : s.enqueueFor f restart = s.place { s.newEntry f with restart := restart } := by
  have hany : ¬(s.li.queue.any fun e => coalesces f e.frame) = true := by
    intro h
    obtain ⟨e, he, hc⟩ := List.any_eq_true.1 h
    exact Bool.eq_false_iff.1 (hn e he) hc
  unfold State.enqueueFor
  rw [if_pos ha, if_neg hany]
  rfl

theorem enqueue_of_placed {s : State} {f : Frame} (ha : s.accepts = true) (hn : ∀ e ∈ s.li.queue, coalesces f e.frame = false) :
    s.enqueue f = s.place (s.newEntry f) := enqueueFor_of_placed ha hn false

/-- Settles O9: by whether the queue has room, and by the rank of the entry that it would evict. -/
theorem queuePlacesOrEvicts : Obligations.QueuePlacesOrEvicts := by
  refine ⟨lose_eq, rank_eq, ?_⟩
  intro s f ha hn number before
  have hbefore : ∀ e : QEntry, before e ↔ e.precedes (s.newEntry f) = true := fun e => (precedes_iff e (s.newEntry f)).symm
  have hpre : ∀ {l : List QEntry}, (∀ e ∈ l, before e) → ∀ e ∈ l, e.precedes (s.newEntry f) = true :=
    fun h e he => (hbefore e).1 (h e he)
  have hpost : ∀ {l : List QEntry}, (∀ e ∈ l, ¬before e) → ∀ e ∈ l, e.precedes (s.newEntry f) = false :=
    fun h e he => Bool.eq_false_iff.2 fun hp => h e he ((hbefore e).2 hp)
  rw [enqueue_of_placed ha hn]
  exact ⟨fun a b hq hroom ha hb => place_of_room hq hroom (hpre ha) (hpost hb), fun a b v hq hfull hv hb =>
    ⟨fun hr => place_of_outranked hq hfull hv hb hr, fun p q hr hpq hp hq' =>
      place_of_evicting hq hfull hv hb hr hpq (hpre hp) (hpost hq')⟩⟩

end Sys2Proof.Proofs.Queueing
end

section
/-! PROOF. Attempts on the line, own frames that complete, frames that reach no block, and RESTART (R1 to R6, R11 to R17, R177). -/

namespace Sys2Proof.Proofs.Line

open Sys2Proof Sys2Proof.Machine Sys2Proof.Proofs.Step Sys2Proof.Proofs.Queueing

-- Proofs are elaborated in order: in the joined text the parallel ones would hold more threads at once than the memory limit allows.
set_option Elab.async false

/-! ### The entry in flight -/

section
variable {s : State} {a b : List QEntry} {e : QEntry}

theorem inFlight_split (hq : s.li.queue = a ++ e :: b) (hn : ∀ x ∈ a ++ b, x.flight = none) : s.inFlight = e.flight := by
  have hnone : ∀ l : List QEntry, (∀ x ∈ l, x.flight = none) → l.findSome? (fun x => x.flight) = none :=
    fun l hl => List.findSome?_eq_none_iff.2 hl
  unfold State.inFlight
  rw [hq, List.findSome?_append, List.findSome?_cons, hnone a fun x hx => hn x (List.mem_append_left b hx),
    hnone b fun x hx => hn x (List.mem_append_right a hx)]
  cases e.flight <;> rfl

theorem restartInFlight_split (hq : s.li.queue = a ++ e :: b) (he : e.flight.isSome = true)
    (hn : ∀ x ∈ a ++ b, x.flight = none) : s.restartInFlight = e.restart := by
  have hfalse : ∀ l : List QEntry, (∀ x ∈ l, x.flight = none) → (l.any fun x => x.flight.isSome && x.restart) = false :=
    fun l hl => List.any_eq_false.2 fun x hx => by simp [hl x hx]
  unfold State.restartInFlight
  rw [hq, List.any_append, List.any_cons, hfalse a fun x hx => hn x (List.mem_append_left b hx),
    hfalse b fun x hx => hn x (List.mem_append_right a hx), he]
  simp

/-- A change of the entries in flight alone, of a queue with one in flight. -/
theorem map_split {f : QEntry → QEntry} (hf : ∀ x : QEntry, x.flight = none → f x = x) (hn : ∀ x ∈ a ++ b, x.flight = none) :
    (a ++ e :: b).map f = a ++ f e :: b := by
  have hid : ∀ l : List QEntry, (∀ x ∈ l, x.flight = none) → l.map f = l := fun l hl =>
    (List.map_congr_left fun x hx => hf x (hl x hx)).trans (List.map_id' l)
  rw [List.map_append, List.map_cons, hid a fun x hx => hn x (List.mem_append_left b hx),
    hid b fun x hx => hn x (List.mem_append_right a hx)]

theorem yield_of_idle (x : QEntry) (hx : x.flight = none) : x.yield = x := by
  unfold QEntry.yield
  rw [← hx]

theorem fail_of_idle (x : QEntry) (hx : x.flight = none) : x.fail = x := by
  unfold QEntry.fail
  rw [hx]
  rfl

theorem fourth_of_idle (x : QEntry) (hx : x.flight = none) : x.fourth = false := by
  unfold QEntry.fourth
  rw [hx]
  rfl

theorem fourth_iff (he : e.flight.isSome = true) : e.fourth = true ↔ 4 ≤ e.attempts + 1 := by
  unfold QEntry.fourth
  rw [he, Bool.true_and, decide_eq_true_eq]

theorem any_fourth (he : e.flight.isSome = true) (hn : ∀ x ∈ a ++ b, x.flight = none) :
    (a ++ e :: b).any QEntry.fourth = true ↔ 4 ≤ e.attempts + 1 := by
  have hfalse : ∀ l : List QEntry, (∀ x ∈ l, x.flight = none) → l.any QEntry.fourth = false :=
    fun l hl => List.any_eq_false.2 fun x hx => by simp [fourth_of_idle x (hl x hx)]
  rw [List.any_append, List.any_cons, hfalse a fun x hx => hn x (List.mem_append_left b hx),
    hfalse b fun x hx => hn x (List.mem_append_right a hx), Bool.or_false, Bool.false_or]
  exact fourth_iff he

/-- The queue without the frame that fails for the fourth time (R5). -/
theorem filter_fourth (he : e.flight.isSome = true) (hn : ∀ x ∈ a ++ b, x.flight = none) (h4 : 4 ≤ e.attempts + 1) :
    (a ++ e :: b).filter (fun x => !x.fourth) = a ++ b := by
  have hkeep : ∀ l : List QEntry, (∀ x ∈ l, x.flight = none) → l.filter (fun x => !x.fourth) = l :=
    fun l hl => List.filter_eq_self.2 fun x hx => by simp [fourth_of_idle x (hl x hx)]
  rw [List.filter_append, List.filter_cons, (fourth_iff he).2 h4, hkeep a fun x hx => hn x (List.mem_append_left b hx),
    hkeep b fun x hx => hn x (List.mem_append_right a hx)]
  rfl

end

/-! ### Attempts -/

theorem onAttemptStart_of_head {s : State} {e : QEntry} {q : List QEntry} (hr : s.receiving = true) (ha : s.accepts = true)
    (hq : s.li.queue = e :: q) (hn : ∀ x ∈ e :: q, x.flight = none) :
    onAttemptStart s = { s with li.queue := e.start :: q } := by
  have hf : s.inFlight = none := by
    unfold State.inFlight
    rw [hq]
    exact List.findSome?_eq_none_iff.2 hn
  unfold onAttemptStart
  rw [if_pos (by simp [canAttempt, hr, ha, hq, hf]), hq]
  rfl

/-- A failed attempt of the entry in flight: the fourth discards it, and the fourth discard brings MUTE (R5, R6). -/
theorem onAttemptFailed_split {s : State} {a b : List QEntry} {e : QEntry} (hq : s.li.queue = a ++ e :: b)
    (he : e.flight.isSome = true) (hn : ∀ x ∈ a ++ b, x.flight = none) :
    onAttemptFailed s =
      if 4 ≤ e.attempts + 1 then
        (if 4 ≤ s.li.discards + 1 then
          State.enterMute { s with
            li.ack := false, li.queue := a ++ b, li.discards := s.li.discards + 1
            cl.resetDue := s.cl.resetDue || e.restart }
        else
          { s with
            li.ack := false, li.queue := a ++ b, li.discards := s.li.discards + 1
            cl.resetDue := s.cl.resetDue || e.restart })
      else { s with li.ack := false, li.queue := a ++ e.fail :: b } := by
  have hf : s.inFlight.isSome = true := by rw [inFlight_split hq hn]; exact he
  unfold onAttemptFailed
  rw [if_pos hf, restartInFlight_split hq he hn, hq]
  by_cases h4 : 4 ≤ e.attempts + 1
  · rw [if_pos h4, if_pos ((any_fourth he hn).2 h4), filter_fourth he hn h4]
  · rw [if_neg h4, if_neg fun h => h4 ((any_fourth he hn).1 h), map_split fail_of_idle hn]

/-- Settles O3: by the count of the entry in flight and the count of discards. -/
theorem attemptsStartAndEnd : Obligations.AttemptsStartAndEnd := by
  refine ⟨fun s e q hr hl hs hq hn => ?_, fun s a b e hq he hn => ?_, fun s a b e hq he hn =>
    ⟨fun h4 => ?_, fun h4 hd => ?_, fun h4 hd => ?_⟩⟩
  · exact exec_of (onAttemptStart_of_head hr ((accepts_iff s).2 ⟨hl, hs⟩) hq hn)
  · refine exec_of ?_
    show onLostArbitration s = _
    unfold onLostArbitration
    rw [inFlight_split hq hn, if_pos he, hq, map_split yield_of_idle hn]
    rfl
  · refine exec_of ((onAttemptFailed_split hq he hn).trans ?_)
    have hfail : e.fail = { e with attempts := e.attempts + 1, flight := none } := if_pos he
    rw [if_neg (by omega), hfail]
  · exact exec_of ((onAttemptFailed_split hq he hn).trans (by rw [if_pos h4, if_neg (by omega)]))
  · exact exec_of ((onAttemptFailed_split hq he hn).trans (by rw [if_pos h4, if_pos hd]; rfl))

/-! ### Own frames that complete -/

theorem afterSuccess_of_idle (x : QEntry) (hx : x.flight = none) : x.afterSuccess = some x := by
  unfold QEntry.afterSuccess
  rw [hx]

theorem afterSuccess_of_flight {e : QEntry} {x : Flight} (he : e.flight = some x) :
    e.afterSuccess = if x.replaced then some { e with attempts := 0, flight := none } else none := by
  unfold QEntry.afterSuccess
  rw [he]

theorem filterMap_afterSuccess {a b : List QEntry} {e : QEntry} {x : Flight} (he : e.flight = some x)
    (hn : ∀ y ∈ a ++ b, y.flight = none) :
    (a ++ e :: b).filterMap QEntry.afterSuccess =
      a ++ (if x.replaced then [{ e with attempts := 0, flight := none }] else []) ++ b := by
  have hid : ∀ l : List QEntry, (∀ y ∈ l, y.flight = none) → l.filterMap QEntry.afterSuccess = l := by
    intro l hl
    induction l with
    | nil => rfl
    | cons y l ih =>
      rw [List.filterMap_cons, afterSuccess_of_idle y (hl y List.mem_cons_self), ih fun z hz => hl z (List.mem_cons_of_mem y hz)]
  rw [List.filterMap_append, List.filterMap_cons, afterSuccess_of_flight he, hid a fun y hy => hn y (List.mem_append_left b hy),
    hid b fun y hy => hn y (List.mem_append_right a hy), List.append_assoc]
  cases x.replaced <;> rfl

theorem and_not_clearsLoss (lost : Bool) (x : Flight) :
    (lost && !x.clearsLoss) =
      match x.frame with
      | .state c => lost && !(c.txqLost && !x.mark)
      | _ => lost := by
  unfold Flight.clearsLoss
  cases x.frame <;> simp

/-- Settles O5: by whether the entry in flight was replaced, and by the kind of its frame. -/
theorem ownFrameCompletes : Obligations.OwnFrameCompletes := by
  intro s a b e x hq he hn
  have hf : s.inFlight = some x := (inFlight_split hq hn).trans he
  have hkind : s.flightKind = some x.frame.kind := by rw [State.flightKind, hf]; rfl
  refine ⟨?_, fun hr => exec_of ?_, fun hr ho hj => exec_of ?_⟩
  · unfold State.complete
    rw [hf, restartInFlight_split hq (by simp [he]) hn, hq, filterMap_afterSuccess he hn]
    rw [Option.any_some, and_not_clearsLoss] <;> rfl
  · show onReplyTaken .own s = _
    unfold onReplyTaken
    rw [hkind, hr]
    rfl
  · have hd : s.delivers x.frame.kind = false := by
      unfold State.delivers
      split
      · contradiction
      · rename_i hst
        simp [(hj hst).1, (hj hst).2]
      · rfl
    show ownUndelivered s = _
    unfold ownUndelivered
    rw [hkind]
    exact if_neg (by simp [hd])

/-! ### Frames that reach no block -/

theorem takeHeard_of_active {s : State} {source : Addr} (hl : s.li.line = .active) (ha : s.cl.address ≠ some source) :
    s.takeHeard source = s.acked := by
  rw [takeHeard_of_other ha]
  simp [State.slotDriven, State.countGood, State.acked, hl]

theorem sourceValid_eq_false (source : Addr) : sourceValid source = false ↔ source = 0 ∨ source = 31 := by
  simp only [sourceValid, Bool.and_eq_false_iff, decide_eq_false_iff_not, not_not]

theorem payloadLength_eq (kind : Nat) :
    payloadLength kind =
      [some 1, some 1, some 6, some 4, some 2, none, none, some 5, some 7, some 7].getD kind none := by
  by_cases h : kind < 10
  · interval_cases kind <;> rfl
  · obtain ⟨k, rfl⟩ := Nat.exists_eq_add_of_le' (Nat.not_lt.1 h)
    rw [List.getD_eq_default _ _ (Nat.le_add_left 10 k)]
    rfl

theorem payloadLength_of_code {kind : Nat} (h : 10 ≤ kind) : payloadLength kind = none := by
  rw [payloadLength_eq, List.getD_eq_default _ _ (by simpa using h)]

/-- A frame taken in ACTIVE whose kind the station state does not deliver, or whose source is invalid, reaches no block. -/
theorem takeFrom_of_undelivered {s : State} {source : Addr} (hr : s.receiving = true) (hl : s.li.line = .active)
    (ha : s.cl.address ≠ some source) {k : Kind} (hd : s.delivers k = false ∨ sourceValid source = false)
    (act : State → State) : s.takeFrom k source act = s.acked := by
  unfold State.takeFrom
  rw [if_pos hr, takeHeard_of_active hl ha]
  have hd' : s.acked.delivers k = s.delivers k := rfl
  refine if_neg ?_
  rw [hd']
  obtain hd | hd := hd <;> simp [hd]

theorem delivers_of_not_operating {s : State} {k : Kind} (ho : s.cl.station ≠ .operating)
    (hj : s.cl.station = .joining → k ≠ .state ∧ k ≠ .join) : s.delivers k = false := by
  unfold State.delivers
  split
  · contradiction
  · rename_i hst
    simp [(hj hst).1, (hj hst).2]
  · rfl

/-- The headers that the receive filter stops (R14). -/
theorem deliversRaw_eq_false {s : State} {source : Addr} {f : RawFrame}
    (h : 10 ≤ f.kind.toNat ∨ (source = 0 ∨ source = 31) ∨ s.cl.station = .loading ∨
        (f.kind.toNat ≠ 5 ∧ payloadLength f.kind.toNat ≠ some f.length) ∨
        (f.kind.toNat ≠ 5 ∧ s.cl.station ≠ .joining ∧ s.cl.station ≠ .operating) ∨
        (f.kind.toNat ≠ 5 ∧ f.kind.toNat ≠ 8 ∧ f.kind.toNat ≠ 9 ∧ s.cl.station = .joining)) :
    s.deliversRaw source f = false := by
  unfold State.deliversRaw
  obtain h | h | h | ⟨h5, h⟩ | ⟨h5, hj, ho⟩ | ⟨h5, h8, h9, hj⟩ := h
  · rw [payloadLength_of_code h, if_neg (by omega)]
    simp
  · rw [(sourceValid_eq_false source).2 h, Bool.false_and]
  · simp [State.commandsDelivered, h]
  · rw [if_neg h5, decide_eq_false h]
    simp
  · rw [if_neg h5]
    cases hst : s.cl.station <;> simp_all
  · simp [h5, h8, h9, hj]

/-- Settles O4: by what stops each frame short of its block. -/
theorem framesWithoutABlockAreTaken : Obligations.FramesWithoutABlockAreTaken := by
  refine ⟨fun s levels hr hbad => exec_of ?_, fun s hh => exec_of ?_, payloadLength_eq, ?_⟩
  · show onFrameBad levels s = _
    unfold onFrameBad
    exact if_pos (by simp [hr, frameGood, hbad])
  · show onFirstIdleAfterReset s = _
    unfold onFirstIdleAfterReset
    exact if_neg (by simp [hh])
  · intro s source hr hl ha isTaken invalid
    have hheard := takeHeard_of_active hl ha
    have hstop : ∀ {c : Instr} {k : Kind} {act : State → State}, effect c s = s.takeFrom k source act → prior c s = s →
        s.delivers k = false ∨ sourceValid source = false → isTaken c := fun he hp hd =>
      exec_of (he.trans (takeFrom_of_undelivered hr hl ha hd _)) hp
    have hinvalid : invalid → sourceValid source = false := (sourceValid_eq_false source).2
    have hblock : ∀ k : Kind, k ≠ .state ∧ k ≠ .join → invalid ∨ s.cl.station ≠ .operating →
        s.delivers k = false ∨ sourceValid source = false := fun k hk h =>
      h.elim (fun h => .inr (hinvalid h)) fun h => .inl (delivers_of_not_operating h fun _ => hk)
    have hpeer : ∀ k : Kind, invalid ∨ (s.cl.station ≠ .operating ∧ s.cl.station ≠ .joining) →
        s.delivers k = false ∨ sourceValid source = false := fun k h =>
      h.elim (fun h => .inr (hinvalid h)) fun h => .inl (delivers_of_not_operating h.1 fun hj => absurd hj h.2)
    refine ⟨exec_of ((if_pos hr).trans hheard), fun d hd hadd => exec_of ?_, fun f hf => exec_of ?_, fun h => ?_, fun h => ?_⟩
    · show onCommandNotAddressed ⟨source, d⟩ s = _
      unfold onCommandNotAddressed
      rw [if_pos (by simp [hr, hadd, hd])]
      exact hheard
    · show onFrameTakenUndelivered (.heard source f) s = _
      have hraw : s.acked.deliversRaw source f = false := deliversRaw_eq_false (s := s.acked) hf
      unfold onFrameTakenUndelivered
      simp only [hheard, hr, hraw, Bool.not_false, Bool.and_self, if_true]
    · exact ⟨fun c => hstop (act := fun t => t.entryArrives c) rfl rfl (hblock .entry (by decide) h),
        fun v => hstop (act := fun t => t.speedArrives source v) rfl rfl (hblock .speed (by decide) h),
        fun c => hstop (act := fun t => t.demandArrives source c) rfl rfl (hblock .demand (by decide) h),
        fun c => hstop (act := fun t => t.alarmArrives source c) rfl rfl (hblock .alarm (by decide) h),
        fun causes => hstop (act := fun t => t.stopArrives source causes) rfl rfl (hblock .stop (by decide) h),
        fun id position measured =>
          ⟨hstop (act := fun t => t.peerLead id position.toNat) rfl rfl (hblock .sight (by decide) h),
            hstop (act := fun t => t.peerTrail id position.toNat measured.toNat) rfl rfl (hblock .sight (by decide) h)⟩⟩
    · exact ⟨fun c => hstop (act := fun t => t.stateArrives source c) rfl rfl (hpeer .state h),
        fun c => hstop (act := fun t => t.joinArrives source) rfl rfl (hpeer .join h)⟩

end Sys2Proof.Proofs.Line
end

section
/-! PROOF. COMMAND frames turned away, and RESTART at its owner (R14 to R17, R177). -/

namespace Sys2Proof.Proofs.Commands

open Sys2Proof Sys2Proof.Machine Sys2Proof.Proofs.Step Sys2Proof.Proofs.Queueing Sys2Proof.Proofs.Line

-- Proofs are elaborated in order: in the joined text the parallel ones would hold more threads at once than the memory limit allows.
set_option Elab.async false

/-! ### Codes -/

theorem operandLength_eq (code : Byte) :
    operandLength code =
      [(0x01#8, 0), (0x10#8, 2), (0x11#8, 1), (0x12#8, 1), (0x20#8, 1), (0x21#8, 1), (0x22#8, 1), (0x23#8, 1), (0x24#8, 1),
        (0x30#8, 3), (0x31#8, 1), (0x32#8, 1), (0x40#8, 0), (0x50#8, 1), (0x60#8, 4), (0x61#8, 2), (0x62#8, 2),
        (0x63#8, 0)].lookup code := by
  revert code
  decide +kernel

/-! ### Commands that their block does not act on -/

/-- A command of a block, by its header and code: the block's answer to it alone differs. -/
theorem ownerCommand_effect {c : Instr} {h : CmdHeader} {code : Byte} (hc : ownerCommand c = some (h, code)) :
    ∃ act : State → Answer, ∀ s : State, effect c s = s.command h code act ∧ prior c s = s := by
  cases c <;> simp only [ownerCommand, Option.some.injEq, Prod.mk.injEq, reduceCtorEq] at hc
  all_goals
    obtain ⟨rfl, rfl⟩ := hc
    exact ⟨_, fun _ => ⟨rfl, rfl⟩⟩

/-- A command is refused in UNCONFIGURED and JOINING where it is addressed (R17). -/
theorem handling_of_refused {s : State} {h : CmdHeader} (hv : sourceValid h.source = true)
    (hs : s.cl.station = .unconfigured ∨ s.cl.station = .joining) (hb : h.dest ≠ broadcast) (ha : s.addressed h = true) :
    s.handling h = .answer .refusedState := by
  unfold State.handling
  rw [hv, if_neg hb, if_pos ha]
  obtain hs | hs := hs <;> rw [hs] <;> rfl

/-- A broadcast command outside OPERATING, and any in LOADING and CONFLICT, is ignored (R14, R17). -/
theorem handling_of_ignored {s : State} {h : CmdHeader} (ho : s.cl.station ≠ .operating)
    (hs : h.dest = broadcast ∨ s.cl.station = .loading ∨ s.cl.station = .conflict) : s.handling h = .nothing := by
  have hop : s.operating = false := by simp [State.operating, ho]
  unfold State.handling
  split
  · rfl
  · obtain hs | hs | hs := hs
    · rw [if_pos hs, hop]
      rfl
    all_goals
      rw [hop, hs]
      split
      · rfl
      · split <;> rfl

theorem command_of_answer {s : State} {h : CmdHeader} {r : ResultCode} (hh : s.hears h.source = true)
    (ha : s.acked.handling h = .answer r) (code : Byte) (act : State → Answer) :
    s.command h code act = s.acked.enqueue (replyFrame h.source code r []) := by
  unfold State.command
  simp only [receiving_of_hears hh, takeHeard_of_hears hh, ha, if_true]

theorem command_of_nothing {s : State} {h : CmdHeader} (hh : s.hears h.source = true) (ha : s.acked.handling h = .nothing)
    (code : Byte) (act : State → Answer) : s.command h code act = s.acked := by
  unfold State.command
  simp only [receiving_of_hears hh, takeHeard_of_hears hh, ha, if_true]

/-! ### Malformed commands -/

theorem onUnknownCommand_of_hears {s : State} {source : Addr} {dest code : Byte} {operands : List Byte}
    (hh : s.hears source = true) (hlen : operandLength code ≠ some operands.length) :
    onUnknownCommand source (dest :: code :: operands) s =
      if s.addressed ⟨source, dest⟩ = true ∧ s.cl.station ≠ .conflict then
        s.acked.enqueue (.reply { panel := source, code := code, result := .badOperand, data := [] })
      else s.acked := by
  have hm : malformedCommand (dest :: code :: operands) = true := decide_eq_true hlen
  have ha : s.acked.addressed ⟨source, dest⟩ = s.addressed ⟨source, dest⟩ := rfl
  unfold onUnknownCommand
  simp only [receiving_of_hears hh, hm, takeHeard_of_hears hh, valid_of_hears hh, Bool.and_self, if_true, List.getD_cons_zero,
    ha, Bool.true_and, Bool.and_eq_true, decide_eq_true_eq]
  rfl

/-- Settles O10: by the code and length of the payload, the destination and the station state. -/
theorem commandsAreTurnedAway : Obligations.CommandsAreTurnedAway := by
  refine ⟨operandLength_eq, rfl, fun s source dest code operands hh hlen _ => ⟨fun hs ha => exec_of ?_, fun ha => exec_of ?_⟩,
    fun s c h code hc hh => ⟨fun hs hb ha => ?_, fun ho hs => ?_⟩⟩
  · refine (onUnknownCommand_of_hears hh hlen).trans (if_pos ⟨ha, fun hconf => ?_⟩)
    rw [hconf] at hs
    simp at hs
  · exact (onUnknownCommand_of_hears hh hlen).trans (if_neg fun h => by rw [ha] at h; cases h.1)
  · obtain ⟨act, hact⟩ := ownerCommand_effect hc
    refine exec_of ((hact s).1.trans ?_) (hact s).2
    exact command_of_answer hh (handling_of_refused (s := s.acked) (valid_of_hears hh) hs hb ha) code act
  · obtain ⟨act, hact⟩ := ownerCommand_effect hc
    refine exec_of ((hact s).1.trans ?_) (hact s).2
    exact command_of_nothing hh (handling_of_ignored (s := s.acked) ho hs) code act

/-! ### RESTART -/

/-- The REPLY to a RESTART (R177). -/
def restartReply (s : State) (panel : Addr) : Frame := replyFrame panel codeRestart .done (restartData s)

theorem onRestart_of_hears {s : State} {h : CmdHeader} (hh : s.hears h.source = true) :
    onRestart h s =
      if h.dest ≠ broadcast ∧ s.addressed h = true then s.acked.acceptRestart h.source else s.acked := by
  have ha : s.acked.addressed h = s.addressed h := rfl
  unfold onRestart
  simp only [receiving_of_hears hh, takeHeard_of_hears hh, valid_of_hears hh, if_true, ha, Bool.true_and, Bool.and_eq_true,
    decide_eq_true_eq]

/-- A restart becomes pending, its timer starts (R177). -/
def restartPends (s : State) : State := { s with cl.restartPending := true, cl.restartTimer := some 100 }

theorem acceptRestart_first {s : State} (hp : s.cl.restartPending = false) (panel : Addr) :
    s.acceptRestart panel = restartPends (s.enqueueFor (restartReply s panel) true) := by
  unfold State.acceptRestart
  rw [hp]
  rfl

theorem acceptRestart_further {s : State} (hp : s.cl.restartPending = true) (panel : Addr) :
    s.acceptRestart panel = s.enqueue (restartReply s panel) := by
  unfold State.acceptRestart
  rw [hp]
  rfl

/-- The data that a RESTART is answered with, whatever the frame's acknowledgement has changed. -/
theorem restartReply_acked (s : State) (panel : Addr) :
    restartReply s.acked panel =
      .reply
        { panel := panel, code := codeRestart, result := .done
          data :=
            [BitVec.ofNat 8 s.cl.station.code, BitVec.ofNat 8 s.cl.fault.code, BitVec.ofNat 8 s.cl.offending,
              if s.cl.joinMark then 1 else 0] } := by
  unfold restartReply restartData
  rw [markByte_eq]
  rfl

theorem rank_of_reply {f : Frame} (h : f.rank = 6) : frameNumber f = 0 := by
  cases f <;> first | rfl | cases h

/-- A REPLY stands behind the frames of higher rank and behind the REPLYs queued before it (R8). -/
theorem precedes_reply (s : State) (c : ReplyContent) (restart : Bool) (e : QEntry) :
    e.precedes { s.newEntry (.reply c) with restart := restart } = true ↔
      e.frame.rank < 6 ∨ (e.frame.rank = 6 ∧ e.moment ≤ s.now.moment) := by
  have hrank : (Frame.reply c).rank = 6 := rfl
  rw [precedes_iff]
  show e.frame.rank < 6 ∨ (e.frame.rank = 6 ∧ (e.moment < s.now.moment ∨ (e.moment = s.now.moment ∧ _ ≤ 0))) ↔ _
  refine or_congr_right (and_congr_right fun h => ?_)
  rw [rank_of_reply h]
  omega

theorem coalesces_reply (c : ReplyContent) (f : Frame) : coalesces (.reply c) f = false := by cases f <;> rfl

/-- Settles O49: by whether a restart is pending, and by what becomes of the REPLY. -/
theorem restartIsAccepted : Obligations.RestartIsAccepted := by
  intro s h hh f entry before pends
  have hreply : restartReply s.acked h.source = f := restartReply_acked s h.source
  have hon := onRestart_of_hears hh
  refine ⟨fun hno => exec_of (hon.trans (if_neg fun hyes => ?_)), fun hb ha hp => exec_of ?_, fun hb ha hp => ?_,
    fun hp ht => exec_of (if_pos ⟨hp, ht⟩)⟩
  · obtain hno | hno := hno
    · exact hyes.1 hno
    · rw [hno] at hyes
      cases hyes.2
  · rw [show effect (.restart h) s = onRestart h s from rfl, hon, if_pos ⟨hb, ha⟩, acceptRestart_further (s := s.acked) hp, hreply]
  · have hfirst : effect (.restart h) s = restartPends (s.acked.enqueueFor f true) := by
      rw [show effect (.restart h) s = onRestart h s from rfl, hon, if_pos ⟨hb, ha⟩, acceptRestart_first (s := s.acked) hp, hreply]
    refine ⟨fun hdrop => exec_of (hfirst.trans ?_), fun hl hs => ?_⟩
    · have hna : s.acked.accepts = false := not_accepts (hdrop.elim (fun h => .inr (.inr h)) .inl)
      rw [enqueueFor_of_dropped hna, Bool.or_true]
      rfl
    · have hacc : s.acked.accepts = true := (accepts_iff s).2 ⟨hl, hs⟩
      have hplace : s.acked.enqueueFor f true = s.acked.place entry :=
        enqueueFor_of_placed hacc (fun e _ => coalesces_reply _ e.frame) true
      have hpre : ∀ {l : List QEntry}, (∀ e ∈ l, before e) → ∀ e ∈ l, e.precedes entry = true :=
        fun h e he => (precedes_reply s _ true e).2 (h e he)
      have hpost : ∀ {l : List QEntry}, (∀ e ∈ l, ¬before e) → ∀ e ∈ l, e.precedes entry = false :=
        fun h e he => Bool.eq_false_iff.2 fun hp => h e he ((precedes_reply s _ true e).1 hp)
      rw [hplace] at hfirst
      refine ⟨fun a b hq hroom ha hb => exec_of (hfirst.trans ?_), fun a b v hq hfull hv hb => ⟨fun hr => exec_of (hfirst.trans ?_),
        fun p q hr hpq hp hq' => exec_of (hfirst.trans ?_)⟩⟩
      · rw [place_of_room (s := s.acked) hq hroom (hpre ha) (hpost hb)]
        rfl
      · rw [place_of_outranked (s := s.acked) (e := entry) hq hfull hv hb hr]
        rfl
      · rw [place_of_evicting (s := s.acked) (e := entry) hq hfull hv hb hr hpq (hpre hp) (hpost hq')]
        rfl

end Sys2Proof.Proofs.Commands
end

section
/-! PROOF. What each transition of a channel does: the channel named, its total and the marks it gives (chapter 4, R37, R53). -/

namespace Sys2Proof.Proofs.ChannelActs

open Sys2Proof Sys2Proof.Machine Sys2Proof.Proofs.Alarm

-- Proofs are elaborated in order: in the joined text the parallel ones would hold more threads at once than the memory limit allows.
set_option Elab.async false

/-! ### Marks -/

theorem mem_allChans (k : Chan) : k ∈ allChans := by revert k; decide

theorem servedFor_marked (img : Image) (marks : Chan → Bool) (r : BoardRec) (k : Chan) :
    (r.marked img marks).servedFor k = (r.servedFor k || (marks k && occupies img.chans[k] r)) := by
  simp only [BoardRec.servedFor, BoardRec.marked, BitVec.getLsbD_or, setOf_getLsbD, mem_allChans, decide_true, Bool.true_and]

theorem occupies_marked (img : Image) (marks : Chan → Bool) (r : BoardRec) (c : ChanCfg) :
    occupies c (r.marked img marks) = occupies c r := rfl

/-- A set given bit by bit. -/
theorem served_ext {x y : BitVec 4} (h : ∀ k : Chan, x.getLsbD k.val = y.getLsbD k.val) : x = y :=
  BitVec.eq_of_getLsbD_eq fun i hi => h ⟨i, hi⟩

theorem marked_eq {img : Image} {marks : Chan → Bool} {r : BoardRec} {served : BitVec 4}
    (h : ∀ k : Chan, served.getLsbD k.val = (r.servedFor k || (marks k && occupies img.chans[k] r))) :
    { r with served := served } = r.marked img marks := by
  have he : served = (r.marked img marks).served := served_ext fun k => (h k).trans (servedFor_marked img marks r k).symm
  rw [he]
  rfl

theorem marked_marked (img : Image) (m n : Chan → Bool) (r : BoardRec) :
    (r.marked img m).marked img n = r.marked img fun k => m k || n k := by
  refine marked_eq (r := r) fun k => ?_
  refine (servedFor_marked img n (r.marked img m) k).trans ?_
  rw [servedFor_marked, occupies_marked, Bool.or_assoc, Bool.and_or_distrib_right]

theorem marked_none (img : Image) (r : BoardRec) : r.marked img (fun _ => false) = r :=
  (marked_eq (r := r) fun k => by simp [BoardRec.servedFor]).symm

theorem map_marked_none (img : Image) (marks : Chan → Bool) (h : ∀ k, marks k = false) (l : List BoardRec) :
    l.map (BoardRec.marked img marks) = l := by
  obtain rfl : marks = fun _ => false := funext h
  exact (List.map_congr_left fun r _ => marked_none img r).trans (List.map_id' l)

theorem map_marked_marked (img : Image) (m n : Chan → Bool) (l : List BoardRec) :
    (l.map (BoardRec.marked img m)).map (BoardRec.marked img n) = l.map (BoardRec.marked img fun k => m k || n k) := by
  rw [List.map_map]
  exact List.map_congr_left fun r _ => marked_marked img m n r

/-- Unserved present, after marks have been given. -/
theorem any_unserved_marked (img : Image) (marks : Chan → Bool) (k : Chan) (l : List BoardRec) :
    ((l.map (BoardRec.marked img marks)).any fun r => occupies img.chans[k] r && !r.servedFor k) =
      ((l.any fun r => occupies img.chans[k] r && !r.servedFor k) && !marks k) := by
  rw [List.any_map]
  have hr : ∀ r : BoardRec, ((fun r => occupies img.chans[k] r && !r.servedFor k) ∘ BoardRec.marked img marks) r =
      ((occupies img.chans[k] r && !r.servedFor k) && !marks k) := by
    intro r
    simp only [Function.comp_apply, occupies_marked, servedFor_marked]
    cases occupies img.chans[k] r <;> cases r.servedFor k <;> cases marks k <;> rfl
  rw [funext hr]
  cases marks k <;> simp

/-! ### Acts on one channel -/

/-- The totals, a pulse of the channel counted or not (R40). -/
def pulsed (totals : Vector Total 5) (k : Chan) (counts : Bool) : Vector Total 5 :=
  if counts then totals.set (pulsesTotal k) totals[pulsesTotal k].incr else totals

/-- From `s` to `t` one channel becomes `x`, its pulse is counted or not, and the boards in its window are marked served or not;
nothing else changes. -/
structure ActsOn (s t : State) (k : Chan) (x : Channel) (counts marks : Bool) : Prop where
  within : ByChannels s t
  self : t.ac[k] = x
  other : ∀ j, j ≠ k → t.ac[j] = s.ac[j]
  totals : t.tt.totals = pulsed s.tt.totals k counts
  table : t.tt.table = s.tt.table.map (BoardRec.marked s.cl.image fun j => decide (j = k) && marks)

theorem ActsOn.as {s t : State} {k : Chan} {x y : Channel} {c m d n : Bool} (h : ActsOn s t k x c m) (hx : t.ac[k] = y)
    (hc : c = d) (hm : m = n) : ActsOn s t k y d n := by
  obtain rfl := hc
  obtain rfl := hm
  exact ⟨h.within, hx, h.other, h.totals, h.table⟩

theorem ActsOn.cl {s t : State} {k : Chan} {x : Channel} {c m : Bool} (h : ActsOn s t k x c m) : t.cl = s.cl := by
  have hw := h.within
  rw [ByChannels] at hw
  rw [hw]

theorem ActsOn.chanCfg {s t : State} {k : Chan} {x : Channel} {c m : Bool} (h : ActsOn s t k x c m) (j : Chan) :
    t.chanCfg j = s.chanCfg j := by
  unfold State.chanCfg
  rw [h.cl]

theorem ActsOn.windows {s t : State} {k : Chan} {x : Channel} {c m : Bool} (h : ActsOn s t k x c m) :
    t.tt.windows = s.tt.windows := by
  have hw := h.within
  rw [ByChannels] at hw
  rw [hw]

theorem ActsOn.unserved {s t : State} {k : Chan} {x : Channel} {c m : Bool} (h : ActsOn s t k x c m) (j : Chan) :
    t.unservedPresent j = (s.unservedPresent j && !(decide (j = k) && m)) := by
  unfold State.unservedPresent
  rw [h.cl, h.table]
  exact any_unserved_marked s.cl.image _ j s.tt.table

theorem ActsOn.unserved_of_unmarked {s t : State} {k : Chan} {x : Channel} {c : Bool} (h : ActsOn s t k x c false) (j : Chan) :
    t.unservedPresent j = s.unservedPresent j := by
  rw [h.unserved]
  simp

/-- Two acts on one channel, at most one of them counting a pulse. -/
theorem ActsOn.trans {s t u : State} {k : Chan} {x y : Channel} {c d m n : Bool} (h : ActsOn s t k x c m)
    (h' : ActsOn t u k y d n) (hc : c = false ∨ d = false) : ActsOn s u k y (c || d) (m || n) where
  within := h.within.trans h'.within
  self := h'.self
  other j hj := (h'.other j hj).trans (h.other j hj)
  totals := by
    rw [h'.totals, h.totals]
    obtain rfl | rfl := hc
    · rfl
    · rw [Bool.or_false]
      rfl
  table := by
    rw [h'.table, h.table, h.cl, map_marked_marked]
    simp only [Bool.and_or_distrib_left]

theorem ActsOn.refl (s : State) (k : Chan) : ActsOn s s k s.ac[k] false false where
  within := rfl
  self := rfl
  other _ _ := rfl
  totals := rfl
  table := (map_marked_none _ _ (fun _ => Bool.and_false _) _).symm

/-- An act that leaves the records and the totals alone. -/
theorem ActsOn.ofChannel {s t : State} {k : Chan} {x : Channel} (hw : ByChannels s t) (hx : t.ac[k] = x)
    (ho : ∀ j, j ≠ k → t.ac[j] = s.ac[j]) (ht : t.tt.totals = s.tt.totals) (hr : t.tt.table = s.tt.table) :
    ActsOn s t k x false false where
  within := hw
  self := hx
  other := ho
  totals := ht
  table := hr.trans (map_marked_none _ _ (fun _ => Bool.and_false _) _).symm

theorem setChan_acts (s : State) (k : Chan) (x : Channel) : ActsOn s (s.setChan k x) k x false false :=
  .ofChannel (setChan_within s k x) (setChan_self s k x) (fun _ hj => setChan_other s hj x) rfl rfl

theorem countPulse_acts (s : State) (k : Chan) :
    ActsOn s (s.countPulse k) k { s.ac[k] with pulses := min 65535 (s.ac[k].pulses + 1) } true false where
  within := countPulse_within s k
  self := countPulse_self s k
  other _ hj := countPulse_other s hj
  totals := rfl
  table := (map_marked_none _ _ (fun _ => Bool.and_false _) _).symm

/-- The bits of a set of channels after one has been added. -/
theorem getLsbD_or_twoPow (b : BitVec 4) (k j : Chan) :
    (b ||| BitVec.twoPow 4 k.val).getLsbD j.val = (b.getLsbD j.val || decide (j = k)) := by
  revert b k j; decide

theorem markPresent_acts (s : State) (k : Chan) : ActsOn s (s.markPresent k) k s.ac[k] false true where
  within := markPresent_within s k
  self := rfl
  other _ _ := rfl
  totals := rfl
  table := by
    refine List.map_congr_left fun r _ => ?_
    by_cases h : occupies (s.chanCfg k) r = true
    · rw [if_pos h]
      refine marked_eq fun j => ?_
      rw [getLsbD_or_twoPow]
      by_cases hj : j = k
      · subst hj
        rw [show occupies s.cl.image.chans[j] r = true from h]
        simp only [decide_true, Bool.or_true, Bool.and_true]
      · simp only [hj, decide_false, Bool.or_false, Bool.false_and, BoardRec.servedFor]
    · rw [if_neg h]
      refine marked_eq (served := r.served) fun j => ?_
      by_cases hj : j = k
      · subst hj
        rw [show occupies s.cl.image.chans[j] r = false from Bool.eq_false_iff.2 h]
        simp only [Bool.and_false, Bool.or_false, BoardRec.servedFor]
      · simp only [hj, decide_false, Bool.or_false, Bool.false_and, BoardRec.servedFor]

theorem enterOn_acts (s : State) (k : Chan) :
    ActsOn s (s.enterOn k) k
      { s.ac[k] with st := .on, timer := if (s.chanCfg k).steady then none else some (s.chanCfg k).onMs } false false :=
  .ofChannel (enterOn_within s k) (enterOn_self s k) (fun _ hj => enterOn_other s hj) rfl rfl

theorem synchronize_totals (s : State) (k : Chan) : (s.synchronize k).tt = s.tt := by
  unfold State.synchronize
  dsimp only
  split <;> rfl

theorem synchronize_acts (s : State) (k : Chan) : ActsOn s (s.synchronize k) k (s.ac[k].begins (s.chanCfg k)) false false :=
  .ofChannel (synchronize_within s k) (synchronize_self s k) (fun _ hj => synchronize_other s hj)
    (by rw [synchronize_totals]) (by rw [synchronize_totals])

/-- An entry to ARMED marks the boards present where it begins the run of a BOARD channel (R62, R53). -/
theorem enterArmed_acts (s : State) (k : Chan) :
    ActsOn s (s.enterArmed k) k (s.ac[k].arms (s.chanCfg k) (s.unservedPresent k)) false
      (decide ((s.chanCfg k).mode = .board) && s.unservedPresent k) := by
  have hset := setChan_acts s k { s.ac[k] with st := .armed, timer := none, saved := none }
  have hself := enterArmed_self s k
  unfold State.enterArmed at hself ⊢
  dsimp only at hself ⊢
  split at hself
  · rename_i hm
    exact (hset.trans (synchronize_acts _ k) (.inl rfl)).as hself rfl (by rw [hm]; rfl)
  · rename_i hm
    have hb : decide ((s.chanCfg k).mode = .board) = true := decide_eq_true hm
    rw [hb, Bool.true_and]
    rw [hset.unserved_of_unmarked] at hself ⊢
    split at hself
    · rename_i hu
      rw [if_pos hu]
      exact ((hset.trans (markPresent_acts _ k) (.inl rfl)).trans (synchronize_acts _ k) (.inl rfl)).as hself rfl hu.symm
    · rename_i hu
      rw [if_neg hu]
      exact hset.as hself rfl (Bool.eq_false_iff.2 hu).symm
  · rename_i hm
    exact hset.as hself rfl (by rw [hm]; rfl)
  · rename_i hm
    exact hset.as hself rfl (by rw [hm]; rfl)

/-- A termination counts the pulse of a steady channel in ON, and marks nothing (R69, R70). -/
theorem terminate_acts (s : State) (k : Chan) (c : Cause) (st : ChanState) :
    ActsOn s (s.terminate k c st) k (s.ac[k].stopsIn (s.chanCfg k) c st) (s.steadyOn k) false := by
  have hself := terminate_stopsIn s k c st
  unfold State.terminate at hself ⊢
  dsimp only at hself ⊢
  split at hself
  · rename_i hs
    rw [if_pos hs]
    exact ((countPulse_acts s k).trans (setChan_acts (s.countPulse k) k _) (.inr rfl)).as hself hs.symm rfl
  · rename_i hs
    rw [if_neg hs]
    exact (setChan_acts s k _).as hself (Bool.eq_false_iff.2 hs).symm rfl

/-- The end of a run, with its follow action (R70, R73). -/
theorem endRun_acts (s : State) (k : Chan) (c : Cause) (hc : c = .count ∨ c = .single ∨ c = .window ∨ c = .inputEnd) :
    ActsOn s (s.endRun k c) k ((s.ac[k].stopsIn (s.chanCfg k) c .idle).ends (s.chanCfg k) (s.unservedPresent k) c) (s.steadyOn k)
      (rearms (s.chanCfg k) c && (decide ((s.chanCfg k).mode = .board) && s.unservedPresent k)) := by
  have ht := terminate_acts s k c .idle
  have hself := endRun_self s k c hc
  unfold State.endRun at hself ⊢
  dsimp only at hself ⊢
  split at hself
  · rename_i hr
    have ha := enterArmed_acts (s.terminate k c .idle) k
    rw [ht.chanCfg, ht.unserved_of_unmarked] at ha
    have hr' : rearms (s.chanCfg k) c = true := hr
    rw [if_pos hr]
    exact (ht.trans ha (.inr rfl)).as hself (Bool.or_false _) (by rw [hr', Bool.true_and, Bool.false_or])
  · rename_i hr
    rw [if_neg hr]
    exact ht.as hself rfl (by rw [Bool.eq_false_iff.2 hr, Bool.false_and])

/-- The end of a pulse of a channel that is not steady (R67). -/
theorem pulseEnds_acts (s : State) (k : Chan) (h0 : (s.chanCfg k).onTime ≠ 0) :
    ActsOn s (s.pulseEnds k) k (s.ac[k].pulsed (s.chanCfg k) (s.unservedPresent k)) true
      ((if (s.chanCfg k).countLimit ≠ 0 ∧ min 65535 (s.ac[k].pulses + 1) = (s.chanCfg k).countLimit then
          (s.chanCfg k).rearmCount
        else decide ((s.chanCfg k).period = 0) && (s.chanCfg k).rearmSingle) &&
        (decide ((s.chanCfg k).mode = .board) && s.unservedPresent k)) := by
  have hcount := countPulse_acts s k
  have hsteady : (s.countPulse k).steadyOn k = false := by
    simp only [State.steadyOn, hcount.chanCfg, ChanCfg.steady, h0, decide_false, Bool.and_false]
  have hend : ∀ c : Cause, c = .count ∨ c = .single ∨ c = .window ∨ c = .inputEnd →
      ActsOn s ((s.countPulse k).endRun k c) k ((s.countPulse k).endRun k c).ac[k] true
        (rearms (s.chanCfg k) c && (decide ((s.chanCfg k).mode = .board) && s.unservedPresent k)) := by
    intro c hc
    have he := endRun_acts (s.countPulse k) k c hc
    rw [hsteady, hcount.chanCfg, hcount.unserved_of_unmarked] at he
    have h := hcount.trans he (.inr rfl)
    rwa [← h.self] at h
  have hself := pulseEnds_self s k h0
  unfold State.pulseEnds at hself ⊢
  dsimp only at hself ⊢
  have hpulses : (s.countPulse k).ac[k].pulses = min 65535 (s.ac[k].pulses + 1) := by rw [hcount.self]
  rw [hpulses] at hself ⊢
  split at hself
  · rename_i hl
    rw [if_pos hl, if_pos hl]
    exact (hend .count (.inl rfl)).as hself rfl rfl
  · rename_i hl
    rw [if_neg hl, if_neg hl]
    split at hself
    · rename_i hp
      rw [if_pos hp]
      exact (hend .single (.inr (.inl rfl))).as hself rfl (by rw [decide_eq_true hp, Bool.true_and]; rfl)
    · rename_i hp
      rw [if_neg hp]
      exact (hcount.trans (setChan_acts (s.countPulse k) k _) (.inr rfl)).as hself rfl
        (by rw [decide_eq_false hp, Bool.false_and, Bool.false_and]; rfl)

/-- An entry to BLOCKED (R74). -/
theorem enterBlocked_acts (s : State) (k : Chan) :
    ActsOn s (s.enterBlocked k) k { s.ac[k].stopsIn (s.chanCfg k) .permit .blocked with blockedMark := s.windowOccupied k }
      (s.steadyOn k) false := by
  have h := (terminate_acts s k .permit .blocked).trans (setChan_acts (s.terminate k .permit .blocked) k
    { (s.terminate k .permit .blocked).ac[k] with blockedMark := s.windowOccupied k }) (.inr rfl)
  exact h.as (enterBlocked_self s k) (Bool.or_false _) rfl

end Sys2Proof.Proofs.ChannelActs
end

section
/-! PROOF. The commands on a set of channels: what each does to a channel that it names, and to all of them together (R78 to R83). -/

namespace Sys2Proof.Proofs.ChannelCommands

open Sys2Proof Sys2Proof.Machine Sys2Proof.Proofs.Step Sys2Proof.Proofs.Alarm Sys2Proof.Proofs.ChannelActs

-- Proofs are elaborated in order: in the joined text the parallel ones would hold more threads at once than the memory limit allows.
set_option Elab.async false

/-! ### Acts on several channels -/

/-- What an act on a channel reads of it is in `t` as it was in `s`. -/
structure Alike (s t : State) (k : Chan) : Prop where
  within : ByChannels s t
  channel : t.ac[k] = s.ac[k]
  unserved : t.unservedPresent k = s.unservedPresent k

theorem Alike.chanCfg {s t : State} {k : Chan} (h : Alike s t k) : t.chanCfg k = s.chanCfg k := by
  have hw := h.within
  rw [ByChannels] at hw
  rw [hw]
  rfl

theorem Alike.ib {s t : State} {k : Chan} (h : Alike s t k) : t.ib = s.ib := by
  have hw := h.within
  rw [ByChannels] at hw
  rw [hw]

theorem Alike.windows {s t : State} {k : Chan} (h : Alike s t k) : t.tt.windows = s.tt.windows := by
  have hw := h.within
  rw [ByChannels] at hw
  rw [hw]

theorem Alike.occupied {s t : State} {k : Chan} (h : Alike s t k) : t.windowOccupied k = s.windowOccupied k := by
  unfold State.windowOccupied
  rw [h.windows]

/-- From `s` to `t` each channel of a list becomes what `x` says, `counts` naming those whose pulse is counted and `marks` those
that mark the boards in their window served; nothing else changes. -/
structure ActOn (s t : State) (l : List Chan) (x : Chan → Channel) (counts marks : Chan → Bool) : Prop where
  within : ByChannels s t
  self : ∀ k ∈ l, t.ac[k] = x k
  other : ∀ k, k ∉ l → t.ac[k] = s.ac[k]
  boards : t.tt.totals[(0 : Fin 5)] = s.tt.totals[(0 : Fin 5)]
  pulses : ∀ k, t.tt.totals[pulsesTotal k] =
    if k ∈ l ∧ counts k = true then s.tt.totals[pulsesTotal k].incr else s.tt.totals[pulsesTotal k]
  table : t.tt.table = s.tt.table.map (BoardRec.marked s.cl.image fun j => decide (j ∈ l) && marks j)

theorem pulsed_boards (totals : Vector Total 5) (k : Chan) (counts : Bool) :
    (pulsed totals k counts)[(0 : Fin 5)] = totals[(0 : Fin 5)] := by
  unfold pulsed
  split
  · simp [pulsesTotal]
  · rfl

theorem pulsed_self (totals : Vector Total 5) (k : Chan) (counts : Bool) :
    (pulsed totals k counts)[pulsesTotal k] = if counts = true then totals[pulsesTotal k].incr else totals[pulsesTotal k] := by
  unfold pulsed
  split
  · simp
  · rfl

theorem pulsed_other (totals : Vector Total 5) {j k : Chan} (h : j ≠ k) (counts : Bool) :
    (pulsed totals k counts)[pulsesTotal j] = totals[pulsesTotal j] := by
  have hv : k.val ≠ j.val := fun e => h (Fin.ext e.symm)
  unfold pulsed
  split
  · simp [pulsesTotal, hv]
  · rfl

/-- The totals are known from BOARDS and the PULSES of each channel (2.8). -/
theorem totals_ext {v w : Vector Total 5} (hb : v[(0 : Fin 5)] = w[(0 : Fin 5)])
    (hp : ∀ k, v[pulsesTotal k] = w[pulsesTotal k]) : v = w := by
  ext i hi
  match i, hi with
  | 0, _ => exact hb
  | i + 1, hi => exact hp ⟨i, by omega⟩

theorem ActOn.nil (s : State) (x : Chan → Channel) (counts marks : Chan → Bool) : ActOn s s [] x counts marks where
  within := rfl
  self _ h := absurd h (by simp)
  other _ _ := rfl
  boards := rfl
  pulses k := by simp
  table := (map_marked_none _ _ (fun _ => by simp) _).symm

/-- A channel outside the list is as it was. -/
theorem ActOn.alike {s t : State} {l : List Chan} {x : Chan → Channel} {counts marks : Chan → Bool} (h : ActOn s t l x counts marks)
    {k : Chan} (hk : k ∉ l) : Alike s t k where
  within := h.within
  channel := h.other k hk
  unserved := by
    have hw := h.within
    rw [ByChannels] at hw
    unfold State.unservedPresent
    rw [h.table, show t.cl = s.cl by rw [hw], any_unserved_marked]
    simp [hk]

/-- One more channel is acted on. -/
theorem ActOn.snoc {s t u : State} {l : List Chan} {x : Chan → Channel} {counts marks : Chan → Bool} (h : ActOn s t l x counts marks)
    {k : Chan} (hk : k ∉ l) (ha : ActsOn t u k (x k) (counts k) (marks k)) : ActOn s u (l ++ [k]) x counts marks where
  within := h.within.trans ha.within
  self j hj := by
    by_cases he : j = k
    · subst he
      exact ha.self
    · rw [ha.other j he]
      exact h.self j (by simpa [he] using hj)
  other j hj := by
    obtain ⟨hl, he⟩ : j ∉ l ∧ j ≠ k := by simpa using hj
    rw [ha.other j he, h.other j hl]
  boards := by rw [ha.totals, pulsed_boards, h.boards]
  pulses j := by
    rw [ha.totals]
    by_cases he : j = k
    · subst he
      rw [pulsed_self, h.pulses]
      simp [hk]
    · rw [pulsed_other _ he, h.pulses]
      simp [he]
  table := by
    have hw := h.within
    rw [ByChannels] at hw
    rw [ha.table, h.table, show t.cl = s.cl by rw [hw], map_marked_marked]
    congr 2
    funext j
    by_cases he : j = k
    · subst he
      simp [hk]
    · simp [he]

/-- Acts made on one channel after another, each the same whatever the others have become. -/
theorem foldl_acts {s : State} {f : State → Chan → State} {x : Chan → Channel} {counts marks : Chan → Bool}
    (hf : ∀ t k, Alike s t k → ActsOn t (f t k) k (x k) (counts k) (marks k)) (l : List Chan) (hl : l.Nodup) :
    ActOn s (l.foldl f s) l x counts marks := by
  induction l using List.reverseRecOn with
  | nil => exact .nil s x counts marks
  | append_singleton l k ih =>
    obtain ⟨hl, _, hd⟩ := List.nodup_append.1 hl
    have hk : k ∉ l := fun h => hd k h k (by simp) rfl
    have h := ih hl
    rw [List.foldl_append]
    exact h.snoc hk (hf _ k (h.alike hk))

theorem ActOn.cl {s t : State} {l : List Chan} {x : Chan → Channel} {counts marks : Chan → Bool} (h : ActOn s t l x counts marks) :
    t.cl = s.cl := by
  have hw := h.within
  rw [ByChannels] at hw
  rw [hw]

/-- All that the acts can change. -/
theorem ActOn.eq {s t : State} {l : List Chan} {x : Chan → Channel} {counts marks : Chan → Bool} (h : ActOn s t l x counts marks) :
    t = { s with ac := t.ac, tt.totals := t.tt.totals
                 tt.table := s.tt.table.map (BoardRec.marked s.cl.image fun j => decide (j ∈ l) && marks j) } := by
  have hw := h.within
  rw [ByChannels] at hw
  rw [← h.table]
  exact hw

/-- Where nothing is marked the records stay. -/
theorem ActOn.table_of_unmarked {s t : State} {l : List Chan} {x : Chan → Channel} {counts marks : Chan → Bool}
    (h : ActOn s t l x counts marks) (hm : ∀ k, marks k = false) : t.tt.table = s.tt.table :=
  h.table.trans (map_marked_none _ _ (fun k => by rw [hm k, Bool.and_false]) _)

/-- Where nothing is counted the totals stay. -/
theorem ActOn.totals_of_uncounted {s t : State} {l : List Chan} {x : Chan → Channel} {counts marks : Chan → Bool}
    (h : ActOn s t l x counts marks) (hc : ∀ k, counts k = false) : t.tt.totals = s.tt.totals :=
  totals_ext h.boards fun k => by rw [h.pulses, hc]; simp

/-! ### Commands on a set -/

/-- The results of acts that are the same whatever the other channels have become. -/
theorem foldl_results {s : State} {act : State → Chan → State × ResultCode} {x : Chan → Channel} {counts marks : Chan → Bool}
    {res : Chan → ResultCode} (hf : ∀ t k, Alike s t k → ActsOn t (act t k).1 k (x k) (counts k) (marks k))
    (hr : ∀ t k, Alike s t k → (act t k).2 = res k) (l : List Chan) (hl : l.Nodup) (r : ResultCode) :
    l.foldl (fun y k => ((act y.1 k).1, worse y.2 (act y.1 k).2)) (s, r) =
      (l.foldl (fun t k => (act t k).1) s, l.foldl (fun r k => worse r (res k)) r) := by
  induction l using List.reverseRecOn with
  | nil => rfl
  | append_singleton l k ih =>
    obtain ⟨hl, _, hd⟩ := List.nodup_append.1 hl
    have hk : k ∉ l := fun h => hd k h k (by simp) rfl
    have ha := (foldl_acts (f := fun t k => (act t k).1) hf l hl).alike hk
    simp only [List.foldl_append, ih hl, List.foldl_cons, List.foldl_nil, hr _ k ha]

theorem onChans_outOfRange {set : BitVec 8} (h : set &&& 0xf0#8 ≠ 0) (act : State → Chan → State × ResultCode) (s : State) :
    onChans set act s = refuse s .badOperand := by
  unfold onChans chanSetOutOfRange
  exact if_pos (decide_eq_true h)

/-- A command on a set acts on each channel of it by itself, and answers the most severe result (R78). -/
theorem onChans_acts {set : BitVec 8} (h : set &&& 0xf0#8 = 0) {s : State} {act : State → Chan → State × ResultCode}
    {x : Chan → Channel} {counts marks : Chan → Bool} {res : Chan → ResultCode}
    (hf : ∀ t k, Alike s t k → ActsOn t (act t k).1 k (x k) (counts k) (marks k))
    (hr : ∀ t k, Alike s t k → (act t k).2 = res k) :
    ∃ t r, onChans set act s = { state := t, result := r, data := [] } ∧ IsWorst set res r ∧
      ActOn s t (chansOf set) x counts marks := by
  refine ⟨_, _, ?_, isWorst_fold set res, foldl_acts (f := fun t k => (act t k).1) hf _ (chansOf_nodup set)⟩
  have hn : chanSetOutOfRange set = false := decide_eq_false (not_not.2 h)
  unfold onChans
  rw [hn]
  simp only [Bool.false_eq_true, if_false, foldl_results hf hr _ (chansOf_nodup set)]

/-- The step of a command on a set that names no channel out of range. -/
theorem exec_of_set {s : State} {h : CmdHeader} (hc : s.commanded h = true) {set : BitVec 8} (hs : set &&& 0xf0#8 = 0)
    {c : Instr} {code : Byte} {act : State → Chan → State × ResultCode} {answer : State → Answer}
    (hexec : exec c s = answers s (s.command h code answer)) (hset : answer s.acked = onChans set act s.acked)
    {x : Chan → Channel} {counts marks : Chan → Bool} {res : Chan → ResultCode}
    (hf : ∀ t k, Alike s.acked t k → ActsOn t (act t k).1 k (x k) (counts k) (marks k))
    (hr : ∀ t k, Alike s.acked t k → (act t k).2 = res k) :
    ∃ t r, exec c s = .next (finish s (t.replied h code r [])) ∧ IsWorst set res r ∧
      ActOn s.acked t (chansOf set) x counts marks := by
  obtain ⟨t, r, ha, hw, hact⟩ := onChans_acts hs hf hr
  exact ⟨t, r, exec_of_answer hc hexec (hset.trans ha) (.inr (.inr rfl)), hw, hact⟩

/-- Whether a list of the channels of a set holds one. -/
theorem decide_mem_chansOf (set : BitVec 8) (k : Chan) : decide (k ∈ chansOf set) = set.getLsbD k.val := by
  simp [mem_chansOf]

/-! ### CH-START (R79) -/

/-- The result of CH-START on a channel. -/
def startResult (s : State) (k : Chan) : ResultCode :=
  if s.owned k then .owned
  else if s.ib.process = .stopped then .stopped
  else if (s.chanCfg k).mode = .off ∨ s.ac[k].st ≠ .idle then .refusedState
  else .done

theorem startResult_of_alike {s t : State} {k : Chan} (h : Alike s t k) : startResult t k = startResult s k := by
  unfold startResult State.owned
  rw [h.chanCfg, h.ib, h.channel]

/-- CH-START on a channel: refused with nothing done, or the channel is IDLE and its permit decides. -/
theorem startFromLine_eq (p t : State) (k : Chan) :
    startFromLine p t k =
      (if startResult t k = .done then (if p.chanPermit k then t.enterArmed k else t.enterBlocked k) else t, startResult t k) := by
  unfold startFromLine startResult State.startChan
  split
  · rfl
  · split
    · rfl
    · split
      · rfl
      · split <;> rfl

theorem idle_of_startResult {t : State} {k : Chan} (h : startResult t k = .done) : t.ac[k].st = .idle := by
  unfold startResult at h
  split at h
  · exact absurd h (by decide)
  · split at h
    · exact absurd h (by decide)
    · split at h
      · exact absurd h (by decide)
      · rename_i hm
        exact not_not.1 (not_or.1 hm).2

/-- A channel after CH-START on it. -/
def startedAs (s : State) (k : Chan) : Channel :=
  if startResult s k ≠ .done then s.ac[k]
  else if s.chanPermit k then s.ac[k].arms s.cl.image.chans[k] (s.unservedPresent k)
  else
    { s.ac[k] with
      st := .blocked, timer := none, saved := none, cause := .permit
      blockedMark := decide (1 ≤ s.tt.windows[k].count) }

theorem blocked_uncounted {t : State} {k : Chan} (h : t.ac[k].st ≠ .on) :
    ActsOn t (t.enterBlocked k) k
      { t.ac[k] with
        st := .blocked, timer := none, saved := none, cause := .permit
        blockedMark := decide (1 ≤ t.tt.windows[k].count) } false false := by
  refine (enterBlocked_acts t k).as ?_ ?_ rfl
  · rw [enterBlocked_self]
    simp only [Channel.stopsIn, h, false_and, if_false]
    rfl
  · simp only [State.steadyOn, h, decide_false, Bool.false_and]

theorem startFromLine_acts {s t : State} {k : Chan} (h : Alike s t k) :
    ActsOn t (startFromLine s t k).1 k (startedAs s k) false
      (decide (startResult s k = .done) && s.chanPermit k && decide (s.cl.image.chans[k].mode = .board) && s.unservedPresent k) := by
  unfold startedAs
  by_cases hr : startResult s k = .done
  · have hr' := (startResult_of_alike h).trans hr
    have hidle := idle_of_startResult hr'
    rw [startFromLine_eq, if_pos hr', if_neg (not_not.2 hr), decide_eq_true hr, Bool.true_and]
    cases hp : s.chanPermit k
    · simp only [Bool.false_eq_true, if_false, Bool.false_and]
      have hb := blocked_uncounted (t := t) (k := k) (by rw [hidle]; decide)
      rwa [h.channel, h.windows] at hb
    · simp only [if_true, Bool.true_and]
      have ha := enterArmed_acts t k
      rwa [h.channel, h.unserved, h.chanCfg, chanCfg_eq] at ha
  · rw [startFromLine_eq, if_neg (by rwa [startResult_of_alike h]), if_pos hr, decide_eq_false hr, ← h.channel]
    exact .refl t k

/-- Settles O23: each channel named is started by itself, the permits read before any is. -/
theorem chStartStarts : Obligations.ChStartStarts := by
  intro s h set hc result marks
  refine ⟨fun ho => exec_of_refusal hc (act := answerChStart set) rfl (onChans_outOfRange ho _ _), fun hs => ?_⟩
  obtain ⟨t, r, he, hw, ha⟩ := exec_of_set (c := .chStart h set) (code := codeChStart) (answer := answerChStart set) (act := startFromLine s.acked)
    (res := startResult s.acked) hc hs rfl rfl (fun t k => startFromLine_acts)
    (fun t k hk => by rw [startFromLine_eq, startResult_of_alike hk])
  have hmarks : (fun j => decide (j ∈ chansOf set) && (decide (startResult s.acked j = .done) && s.acked.chanPermit j &&
      decide (s.acked.cl.image.chans[j].mode = .board) && s.acked.unservedPresent j)) = marks := by
    funext j
    rw [decide_mem_chansOf]
    simp only [← Bool.and_assoc]
    rfl
  refine ⟨t, r, he, hw, ?_, fun k => ⟨?_, ?_, ?_⟩⟩
  · have heq := ha.eq
    rw [hmarks, ha.totals_of_uncounted fun _ => rfl] at heq
    exact heq
  · rintro (hk | hk)
    · exact ha.other k (by rw [mem_chansOf, hk]; decide)
    · by_cases hm : k ∈ chansOf set
      · exact (ha.self k hm).trans (if_pos hk)
      · exact ha.other k hm
  · intro hk hr hp
    refine (ha.self k ((mem_chansOf set k).2 hk)).trans ?_
    exact (if_neg (not_not.2 hr)).trans (if_neg (by rw [show s.acked.chanPermit k = s.chanPermit k from rfl, hp]; decide))
  · intro hk hr hp
    refine (ha.self k ((mem_chansOf set k).2 hk)).trans ?_
    exact (if_neg (not_not.2 hr)).trans (if_pos hp)

/-! ### CH-HALT-SAVE (R82) -/

/-- The result of CH-HALT-SAVE on a channel. -/
def saveResult (s : State) (k : Chan) : ResultCode :=
  if s.owned k then .owned
  else if s.ac[k].st = .armed ∨ s.ac[k].st = .delay ∨ s.ac[k].st = .on ∨ s.ac[k].st = .off then .done
  else .refusedState

theorem saveResult_of_alike {s t : State} {k : Chan} (h : Alike s t k) : saveResult t k = saveResult s k := by
  unfold saveResult State.owned
  rw [h.chanCfg, h.channel]

theorem saveResult_of_owned {t : State} {k : Chan} (h : t.owned k = true) : saveResult t k = .owned := if_pos h

theorem saveResult_of_running {t : State} {k : Chan} (ho : ¬ t.owned k = true)
    (h : t.ac[k].st = .armed ∨ t.ac[k].st = .delay ∨ t.ac[k].st = .on ∨ t.ac[k].st = .off) : saveResult t k = .done :=
  (if_neg ho).trans (if_pos h)

theorem saveResult_of_other {t : State} {k : Chan} (ho : ¬ t.owned k = true)
    (h : ¬ (t.ac[k].st = .armed ∨ t.ac[k].st = .delay ∨ t.ac[k].st = .on ∨ t.ac[k].st = .off)) :
    saveResult t k = .refusedState :=
  (if_neg ho).trans (if_neg h)

theorem haltSave_eq (t : State) (k : Chan) :
    haltSave t k =
      (if saveResult t k = .done then
        t.setChan k { t.ac[k] with st := .held, timer := none, saved := some ⟨t.ac[k].st, t.ac[k].timer, t.ac[k].pulses⟩ }
      else t, saveResult t k) := by
  unfold haltSave
  split
  · rename_i ho
    rw [saveResult_of_owned ho]
    rfl
  · rename_i ho
    split
    · rename_i hs
      rw [saveResult_of_running ho (.inl hs)]
      rfl
    · rename_i hs
      rw [saveResult_of_running ho (.inr (.inl hs))]
      rfl
    · rename_i hs
      rw [saveResult_of_running ho (.inr (.inr (.inl hs)))]
      rfl
    · rename_i hs
      rw [saveResult_of_running ho (.inr (.inr (.inr hs)))]
      rfl
    · rename_i h1 h2 h3 h4
      rw [saveResult_of_other ho (by rintro (h | h | h | h) <;> contradiction)]
      rfl

theorem haltSave_acts {s t : State} {k : Chan} (h : Alike s t k) :
    ActsOn t (haltSave t k).1 k
      (if saveResult s k = .done then
        { s.ac[k] with st := .held, timer := none, saved := some ⟨s.ac[k].st, s.ac[k].timer, s.ac[k].pulses⟩ }
      else s.ac[k]) false false := by
  rw [haltSave_eq, saveResult_of_alike h, h.channel]
  dsimp only
  split
  · exact setChan_acts t k _
  · rw [← h.channel]
    exact .refl t k

/-- Settles O25. -/
theorem chHaltSaveHolds : Obligations.ChHaltSaveHolds := by
  intro s h set hc result
  refine ⟨fun ho => exec_of_refusal hc (act := answerChHaltSave set) rfl (onChans_outOfRange ho _ _), fun hs => ?_⟩
  obtain ⟨t, r, he, hw, ha⟩ := exec_of_set (c := .chHaltSave h set) (code := codeChHaltSave) (answer := answerChHaltSave set) (act := haltSave)
    (res := saveResult s.acked) hc hs rfl rfl
    (fun t k => haltSave_acts) (fun t k hk => by rw [haltSave_eq, saveResult_of_alike hk])
  refine ⟨t, r, he, hw, ?_, fun k => ?_⟩
  · have heq := ha.eq
    rw [← ha.table, ha.totals_of_uncounted fun _ => rfl, ha.table_of_unmarked fun _ => rfl] at heq
    exact heq
  · by_cases hm : k ∈ chansOf set
    · rw [ha.self k hm]
      have hk := (mem_chansOf set k).1 hm
      simp only [hk, true_and]
      rfl
    · rw [ha.other k hm, if_neg fun hk => hm ((mem_chansOf set k).2 hk.1)]
      rfl

end Sys2Proof.Proofs.ChannelCommands
end

section
/-! PROOF. CH-HALT, which alone sets the feed inhibit besides (R80, R129). -/

namespace Sys2Proof.Proofs.Halt

open Sys2Proof Sys2Proof.Machine Sys2Proof.Proofs.Step Sys2Proof.Proofs.ChannelActs Sys2Proof.Proofs.ChannelCommands

-- Proofs are elaborated in order: in the joined text the parallel ones would hold more threads at once than the memory limit allows.
set_option Elab.async false

/-! ### CH-HALT (R80) -/

/-- A channel after a halt. -/
def Channel.halted (c : ChanCfg) (x : Channel) : Channel :=
  if x.st = .idle ∨ x.st = .halting then x
  else if x.st = .on ∧ c.onTime ≠ 0 ∧ c.completePulse = true then { x with st := .halting, cause := .halt }
  else x.stopsIn c .halt .idle

theorem halted_of_resting {c : ChanCfg} {x : Channel} (h : x.st = .idle ∨ x.st = .halting) : Channel.halted c x = x := if_pos h

theorem halted_of_completing {c : ChanCfg} {x : Channel} (h : x.st = .on) (hc : c.onTime ≠ 0 ∧ c.completePulse = true) :
    Channel.halted c x = { x with st := .halting, cause := .halt } :=
  (if_neg (by rw [h]; decide)).trans (if_pos ⟨h, hc⟩)

theorem halted_of_cut {c : ChanCfg} {x : Channel} (h : ¬ (x.st = .idle ∨ x.st = .halting))
    (hc : x.st = .on → ¬ (c.onTime ≠ 0 ∧ c.completePulse = true)) : Channel.halted c x = x.stopsIn c .halt .idle :=
  (if_neg h).trans (if_neg fun hn => hc hn.1 hn.2)

theorem steadyOn_of_not_on {s : State} {k : Chan} (h : s.ac[k].st ≠ .on) : s.steadyOn k = false := by
  rw [State.steadyOn, decide_eq_false h, Bool.false_and]

theorem haltChan_acts (s : State) (k : Chan) :
    ActsOn s (s.haltChan k) k (Channel.halted (s.chanCfg k) s.ac[k]) (s.steadyOn k) false := by
  have hterm := terminate_acts s k .halt .idle
  unfold State.haltChan
  split
  · rename_i hs
    exact (ActsOn.refl s k).as (halted_of_resting (.inl hs)).symm (steadyOn_of_not_on (by rw [hs]; decide)).symm rfl
  · rename_i hs
    exact (ActsOn.refl s k).as (halted_of_resting (.inr hs)).symm (steadyOn_of_not_on (by rw [hs]; decide)).symm rfl
  · rename_i hs
    split
    · rename_i hp
      obtain ⟨hsteady, hcomplete⟩ : (s.chanCfg k).steady = false ∧ (s.chanCfg k).completePulse = true := by simpa using hp
      have hon : (s.chanCfg k).onTime ≠ 0 := of_decide_eq_false hsteady
      refine (setChan_acts s k _).as ((setChan_self s k _).trans (halted_of_completing hs ⟨hon, hcomplete⟩).symm) ?_ rfl
      rw [State.steadyOn, hsteady, Bool.and_false]
    · rename_i hp
      refine hterm.as (hterm.self.trans (halted_of_cut (by rw [hs]; decide) fun _ hc => hp ?_).symm) rfl rfl
      rw [hc.2, Bool.and_true, Bool.not_eq_true']
      exact decide_eq_false hc.1
  · rename_i hidle hhalting hon
    exact hterm.as (hterm.self.trans (halted_of_cut (by rintro (h | h) <;> contradiction) fun h => absurd h hon).symm) rfl rfl

/-- A state with its feed inhibit set where `b` says so (R129). -/
def inhibited (s : State) (b : Bool) : State := { s with lu.inhibit := s.lu.inhibit || b }

theorem inhibited_false (s : State) : inhibited s false = s := by
  unfold inhibited
  rw [Bool.or_false]

theorem inhibited_inhibited (s : State) (a b : Bool) : inhibited (inhibited s a) b = inhibited s (a || b) := by
  unfold inhibited
  rw [← Bool.or_assoc]

theorem terminate_inhibited (s : State) (b : Bool) (k : Chan) (c : Cause) (st : ChanState) :
    (inhibited s b).terminate k c st = inhibited (s.terminate k c st) b := by
  unfold State.terminate
  rw [show (inhibited s b).steadyOn k = s.steadyOn k from rfl]
  cases s.steadyOn k <;> rfl

theorem haltChan_inhibited (s : State) (b : Bool) (k : Chan) : (inhibited s b).haltChan k = inhibited (s.haltChan k) b := by
  have hterm := terminate_inhibited s b k .halt .idle
  have hac : (inhibited s b).ac[k] = s.ac[k] := rfl
  have hcfg : (inhibited s b).chanCfg k = s.chanCfg k := rfl
  unfold State.haltChan
  rw [hac, hcfg, hterm]
  generalize (!(s.chanCfg k).steady && (s.chanCfg k).completePulse) = completes
  generalize s.ac[k].st = st
  cases st with
  | on => cases completes <;> rfl
  | _ => rfl

theorem haltFromLine_eq (s : State) (k : Chan) : haltFromLine s k = (inhibited (s.haltChan k) (s.owned k), .done) := by
  unfold haltFromLine
  cases s.owned k
  · rw [inhibited_false]
    rfl
  · rw [inhibited, Bool.or_true]
    rfl

/-- The channels are halted one after another; that of the level unit sets the feed inhibit besides. -/
theorem foldl_haltFromLine (s : State) (l : List Chan) :
    l.foldl (fun y k => ((haltFromLine y.1 k).1, worse y.2 (haltFromLine y.1 k).2)) (s, ResultCode.done) =
      (inhibited (l.foldl State.haltChan s) (l.any s.owned), .done) := by
  induction l using List.reverseRecOn with
  | nil => rw [List.any_nil, inhibited_false]; rfl
  | append_singleton l k ih =>
    have hcl : (l.foldl State.haltChan s).cl = s.cl := by
      have hw := foldl_within ByChannels .refl .trans State.haltChan haltChan_within l s
      rw [ByChannels] at hw
      rw [hw]
    have howned : (inhibited (l.foldl State.haltChan s) (l.any s.owned)).owned k = s.owned k := by
      unfold State.owned State.chanCfg inhibited
      rw [hcl]
    rw [List.foldl_append, ih, List.foldl_append, List.any_append, List.foldl_cons, List.foldl_nil, haltFromLine_eq,
      haltChan_inhibited, inhibited_inhibited, howned]
    simp only [List.foldl_cons, List.foldl_nil, List.any_cons, List.any_nil, Bool.or_false]
    rfl

theorem any_chansOf (set : BitVec 8) (p : Chan → Bool) :
    (chansOf set).any p = allChans.any fun k => set.getLsbD k.val && p k := by
  rw [chansOf, List.any_filter]
  rfl

/-- Settles O24: the halts are acts of the channels, apart from the feed inhibit. -/
theorem chHaltHalts : Obligations.ChHaltHalts := by
  intro s h set hc
  refine ⟨fun ho => exec_of_refusal hc (act := answerChHalt set) rfl (onChans_outOfRange ho _ _), fun hs => ?_⟩
  have hacts := foldl_acts (s := s.acked) (f := State.haltChan) (x := fun k => Channel.halted (s.acked.chanCfg k) s.acked.ac[k])
    (counts := s.acked.steadyOn) (marks := fun _ => false)
    (fun t k hk => by
      have ha := haltChan_acts t k
      rwa [State.steadyOn, hk.chanCfg, hk.channel, ← State.steadyOn] at ha) (chansOf set) (chansOf_nodup set)
  have hanswer : answerChHalt set s.acked =
      { state := inhibited ((chansOf set).foldl State.haltChan s.acked) ((chansOf set).any s.acked.owned), result := .done, data := [] } := by
    have hn : chanSetOutOfRange set = false := decide_eq_false (not_not.2 hs)
    unfold answerChHalt onChans
    rw [hn]
    simp only [Bool.false_eq_true, if_false, foldl_haltFromLine]
  refine ⟨_, exec_of_answer hc (act := answerChHalt set) rfl hanswer (.inl rfl), ?_, ?_, hacts.boards, fun k => ⟨?_, ?_⟩⟩
  · generalize (chansOf set).foldl State.haltChan s.acked = u at hacts ⊢
    have heq := hacts.eq
    rw [← hacts.table, hacts.table_of_unmarked fun _ => rfl] at heq
    have hlu := hacts.within.same.2.2.2.1
    unfold inhibited
    rw [heq]
  · have hlu := hacts.within.same.2.2.2.1
    show (((chansOf set).foldl State.haltChan s.acked).lu.inhibit || (chansOf set).any s.acked.owned) = _
    rw [hlu, any_chansOf]
    rfl
  · refine (hacts.pulses k).trans ?_
    simp only [mem_chansOf, State.steadyOn, Bool.and_eq_true, decide_eq_true_eq, ChanCfg.steady]
    rfl
  · by_cases hm : k ∈ chansOf set
    · have hk := (mem_chansOf set k).1 hm
      refine (hacts.self k hm).trans ?_
      simp only [hk, Bool.true_eq_false, false_or]
      rfl
    · refine (hacts.other k hm).trans (if_pos (.inl ?_)).symm
      rwa [mem_chansOf, Bool.not_eq_true] at hm

end Sys2Proof.Proofs.Halt
end

section
/-! PROOF. CH-CONTINUE: what a HELD channel resumes to (R83). -/

namespace Sys2Proof.Proofs.Continue

open Sys2Proof Sys2Proof.Machine Sys2Proof.Proofs.Step Sys2Proof.Proofs.ChannelActs Sys2Proof.Proofs.ChannelCommands

-- Proofs are elaborated in order: in the joined text the parallel ones would hold more threads at once than the memory limit allows.
set_option Elab.async false
open Sys2Proof.Proofs.Halt

/-! ### Modes -/

/-- Only a BOARD channel asks whether an unserved board is present (R62). -/
theorem arms_of_not_board {c : ChanCfg} (h : c.mode ≠ .board) (u v : Bool) (x : Channel) : x.arms c u = x.arms c v := by
  unfold Channel.arms
  cases hm : c.mode with
  | board => exact absurd hm h
  | _ => rfl

theorem pulsed_of_not_board {c : ChanCfg} (h : c.mode ≠ .board) (u v : Bool) (x : Channel) : x.pulsed c u = x.pulsed c v := by
  unfold Channel.pulsed Channel.ends
  simp only [arms_of_not_board h u v]

/-- A termination from the run changes no more than its follow action then sets, but for a steady pulse (R69, R70). -/
theorem ends_stopsIn {c : ChanCfg} {x : Channel} (h : x.st ≠ .on) (u : Bool) (cause cause' : Cause) (st : ChanState) :
    (x.stopsIn c cause st).ends c u cause' = x.ends c u cause' := by
  unfold Channel.stopsIn Channel.ends
  simp only [h, false_and, if_false]

/-! ### The context restored -/

/-- A channel with its saved context restored (R83). -/
def Channel.restored (x : Channel) (c : Saved) : Channel := { x with st := c.st, timer := c.left, pulses := c.pulses, saved := none }

/-- The phase restored has ended already (R83). -/
def ended (s : State) (k : Chan) (c : Saved) : Bool :=
  decide (c.st = .on) && decide (c.left = some 0) && decide ((s.chanCfg k).onTime ≠ 0)

theorem ended_iff (s : State) (k : Chan) (c : Saved) :
    (c.st = .on ∧ c.left = some 0 ∧ (s.chanCfg k).steady = false) ↔ ended s k c = true := by
  simp [ended, ChanCfg.steady, and_assoc]

/-- A channel after its context has been restored. -/
def resumedTo (s : State) (k : Chan) (c : Saved) : Channel :=
  if c.st = .armed then (Channel.restored s.ac[k] c).arms (s.chanCfg k) (s.unservedPresent k)
  else if ended s k c then (Channel.restored s.ac[k] c).pulsed (s.chanCfg k) false
  else Channel.restored s.ac[k] c

/-- The restored channel marks the boards present where it is a BOARD channel, armed only where one is unserved (R53, R83). -/
def resumeMarks (s : State) (k : Chan) (c : Saved) : Bool :=
  decide ((s.chanCfg k).mode = .board) && (if c.st = .armed then s.unservedPresent k else true)

/-- The context put back, and the boards present marked by a BOARD channel in its run (R83). -/
theorem putBack_acts (s : State) (k : Chan) (c : Saved) :
    ActsOn s
      (if (s.chanCfg k).mode = .board then (s.setChan k (Channel.restored s.ac[k] c)).markPresent k
        else s.setChan k (Channel.restored s.ac[k] c)) k (Channel.restored s.ac[k] c) false
      (decide ((s.chanCfg k).mode = .board)) := by
  have hset := setChan_acts s k (Channel.restored s.ac[k] c)
  split
  · rename_i hb
    exact (hset.trans (markPresent_acts _ k) (.inl rfl)).as hset.self rfl (decide_eq_true hb).symm
  · rename_i hb
    exact hset.as hset.self rfl (decide_eq_false hb).symm

theorem restore_acts (s : State) (k : Chan) (c : Saved) :
    ActsOn s (s.restore k c) k (resumedTo s k c) (ended s k c) (resumeMarks s k c) := by
  have hset := setChan_acts s k (Channel.restored s.ac[k] c)
  have hput := putBack_acts s k c
  show ActsOn s (if c.st = .armed then (s.setChan k (Channel.restored s.ac[k] c)).enterArmed k else _) k _ _ _
  unfold resumedTo resumeMarks
  by_cases ha : c.st = .armed
  · rw [if_pos ha, if_pos ha, if_pos ha]
    have harm := enterArmed_acts (s.setChan k (Channel.restored s.ac[k] c)) k
    rw [hset.self, hset.chanCfg, hset.unserved_of_unmarked] at harm
    refine (hset.trans harm (.inl rfl)).as harm.self ?_ (Bool.false_or _)
    rw [ended, ha]
    rfl
  · rw [if_neg ha, if_neg ha, if_neg ha, Bool.and_true]
    generalize hu : (if (s.chanCfg k).mode = .board then (s.setChan k (Channel.restored s.ac[k] c)).markPresent k
      else s.setChan k (Channel.restored s.ac[k] c)) = u at hput
    have hend : ∀ t, (if c.st = .on ∧ c.left = some 0 ∧ (s.chanCfg k).steady = false then u.pulseEnds k else u) = t →
        ActsOn s t k
          (if ended s k c = true then (Channel.restored s.ac[k] c).pulsed (s.chanCfg k) false else Channel.restored s.ac[k] c)
          (ended s k c) (decide ((s.chanCfg k).mode = .board)) := by
      rintro t rfl
      cases he : ended s k c
      · rw [if_neg (by rw [ended_iff, he]; decide), if_neg (by decide)]
        exact hput
      · have hon : (s.chanCfg k).onTime ≠ 0 := of_decide_eq_true (Bool.and_eq_true_iff.1 he).2
        have hpulse := pulseEnds_acts u k (by rwa [hput.chanCfg])
        rw [hput.chanCfg, hput.unserved, hput.self] at hpulse
        rw [if_pos ((ended_iff s k c).2 he), if_pos rfl]
        refine (hput.trans hpulse (.inl rfl)).as (hpulse.self.trans ?_) rfl ?_
        · by_cases hb : (s.chanCfg k).mode = .board
          · simp [hb]
          · exact pulsed_of_not_board hb _ _ _
        · cases decide ((s.chanCfg k).mode = .board)
          · simp
          · rfl
    exact hend _ (by rw [← hu]; rfl)

/-! ### CH-CONTINUE -/

/-- The result of CH-CONTINUE on a channel. -/
def continueResult (s : State) (k : Chan) : ResultCode :=
  if s.owned k then .owned
  else if s.ib.process = .stopped then .stopped
  else if s.ac[k].st ≠ .held then .notHeld
  else .done

theorem continueResult_of_alike {s t : State} {k : Chan} (h : Alike s t k) : continueResult t k = continueResult s k := by
  unfold continueResult State.owned
  rw [h.chanCfg, h.ib, h.channel]

theorem held_of_continueResult {t : State} {k : Chan} (h : continueResult t k = .done) : t.ac[k].st = .held := by
  unfold continueResult at h
  split at h
  · exact absurd h (by decide)
  · split at h
    · exact absurd h (by decide)
    · split at h
      · exact absurd h (by decide)
      · rename_i hh
        exact not_not.1 hh

/-- The context that a HELD channel holds. -/
def contextOf (s : State) (k : Chan) : Saved := s.ac[k].saved.getD ⟨s.ac[k].st, s.ac[k].timer, s.ac[k].pulses⟩

theorem continueFromLine_eq (p t : State) (k : Chan) :
    continueFromLine p t k =
      (if continueResult t k = .done then t.continueHeld (p.chanPermit k) k (contextOf t k) else t, continueResult t k) := by
  unfold continueFromLine continueResult
  split
  · rfl
  · split
    · rfl
    · split <;> rfl

/-- The window of a BOARD channel held in its run has emptied (R83). -/
def emptied (s : State) (k : Chan) (c : Saved) : Bool :=
  decide ((s.chanCfg k).mode = .board) && decide (s.tt.windows[k].count = 0) &&
    decide (c.st = .delay ∨ c.st = .on ∨ c.st = .off)

theorem inRun_iff (c : Saved) : c.inRun = true ↔ c.st = .delay ∨ c.st = .on ∨ c.st = .off := by
  unfold Saved.inRun
  cases c.st <;> decide

theorem emptied_iff (s : State) (k : Chan) (c : Saved) :
    ((s.chanCfg k).mode = .board ∧ c.inRun = true ∧ s.tt.windows[k].count = 0) ↔ emptied s k c = true := by
  rw [inRun_iff, emptied]
  simp only [Bool.and_eq_true, decide_eq_true_eq]
  tauto

/-- A HELD channel after CH-CONTINUE, its permit true (R83). -/
def continuedTo (s : State) (k : Chan) (c : Saved) : Channel :=
  if emptied s k c then s.ac[k].ends (s.chanCfg k) (s.unservedPresent k) .window else resumedTo s k c

/-- What CH-CONTINUE on a HELD channel marks, its permit true (R53, R83). -/
def continueMarks (s : State) (k : Chan) (c : Saved) : Bool :=
  if emptied s k c then (s.chanCfg k).rearmWindow && (decide ((s.chanCfg k).mode = .board) && s.unservedPresent k)
  else resumeMarks s k c

theorem continueHeld_permitted {s : State} {k : Chan} (h : s.ac[k].st ≠ .on) (c : Saved) :
    ActsOn s (s.continueHeld true k c) k (continuedTo s k c) (!emptied s k c && ended s k c) (continueMarks s k c) := by
  unfold State.continueHeld continuedTo continueMarks
  rw [if_neg (show ¬ (!true) = true by decide)]
  cases he : emptied s k c
  · rw [if_neg (by rw [emptied_iff, he]; decide)]
    exact restore_acts s k c
  · rw [if_pos ((emptied_iff s k c).2 he)]
    have hend := endRun_acts s k .window (.inr (.inr (.inl rfl)))
    exact hend.as (hend.self.trans (ends_stopsIn h _ _ _ _)) (steadyOn_of_not_on h) rfl

/-- A channel after CH-CONTINUE on it. -/
def continuedAs (s : State) (k : Chan) : Channel :=
  if continueResult s k ≠ .done then s.ac[k]
  else if s.chanPermit k then continuedTo s k (contextOf s k)
  else
    { s.ac[k] with
      st := .blocked, timer := none, saved := none, cause := .permit
      blockedMark := decide (1 ≤ s.tt.windows[k].count) }

/-- CH-CONTINUE takes effect on a channel whose permit is true. -/
def continues (s : State) (k : Chan) : Bool := decide (continueResult s k = .done) && s.chanPermit k

theorem emptied_of_alike {s t : State} {k : Chan} (h : Alike s t k) (c : Saved) : emptied t k c = emptied s k c := by
  unfold emptied
  rw [h.chanCfg, h.windows]

theorem ended_of_alike {s t : State} {k : Chan} (h : Alike s t k) (c : Saved) : ended t k c = ended s k c := by
  unfold ended
  rw [h.chanCfg]

theorem continueFromLine_acts {s t : State} {k : Chan} (h : Alike s t k) :
    ActsOn t (continueFromLine s t k).1 k (continuedAs s k)
      (continues s k && !emptied s k (contextOf s k) && ended s k (contextOf s k))
      (continues s k && continueMarks s k (contextOf s k)) := by
  rw [continueFromLine_eq, continueResult_of_alike h]
  unfold continuedAs continues
  have hcontext : contextOf t k = contextOf s k := by
    unfold contextOf
    rw [h.channel]
  by_cases hr : continueResult s k = .done
  · have hheld : t.ac[k].st ≠ .on := by
      rw [held_of_continueResult ((continueResult_of_alike h).trans hr)]
      decide
    rw [if_pos hr, if_neg (not_not.2 hr), decide_eq_true hr, Bool.true_and, hcontext]
    cases s.chanPermit k
    · have hb := blocked_uncounted hheld
      rw [h.channel, h.windows] at hb
      exact hb
    · have hp := continueHeld_permitted hheld (contextOf s k)
      unfold continuedTo continueMarks resumedTo resumeMarks at hp
      simp only [emptied_of_alike h, ended_of_alike h, h.chanCfg, h.channel, h.unserved] at hp
      simp only [Bool.true_and]
      exact hp
  · rw [if_neg hr, if_pos hr, decide_eq_false hr, ← h.channel]
    exact .refl t k

/-- Settles O26: each channel named is continued by itself, the permits read before any is. -/
theorem chContinueResumes : Obligations.ChContinueResumes := by
  intro s h set hc cfg result context permitted emptied' ended' marks
  refine ⟨fun ho => exec_of_refusal hc (act := answerChContinue set) rfl (onChans_outOfRange ho _ _), fun hs => ?_⟩
  obtain ⟨t, r, he, hw, ha⟩ := exec_of_set (c := .chContinue h set) (code := codeChContinue) (answer := answerChContinue set)
    (act := continueFromLine s.acked) (res := continueResult s.acked) hc hs rfl rfl (fun t k => continueFromLine_acts)
    (fun t k hk => by rw [continueFromLine_eq, continueResult_of_alike hk])
  have hpermitted : ∀ k, permitted k = (decide (k ∈ chansOf set) && continues s.acked k) := by
    intro k
    rw [decide_mem_chansOf, continues, ← Bool.and_assoc]
    rfl
  have hmarks : (fun j => decide (j ∈ chansOf set) &&
      (continues s.acked j && continueMarks s.acked j (contextOf s.acked j))) = marks := by
    funext j
    show _ = (permitted j && decide ((cfg j).mode = .board) && _)
    rw [hpermitted, ← Bool.and_assoc, Bool.and_assoc (b := decide ((cfg j).mode = .board))]
    congr 1
    show (if emptied' j = true then _ else _ && _) = _
    cases emptied' j
    · rfl
    · rw [if_pos rfl, if_pos rfl, Bool.and_left_comm]
      rfl
  have hnamed : ∀ {k}, permitted k = true → k ∈ chansOf set ∧ t.ac[k] = continuedTo s.acked k (contextOf s.acked k) := by
    intro k hp
    rw [hpermitted, Bool.and_eq_true, decide_eq_true_eq] at hp
    obtain ⟨hm, hcont⟩ := hp
    rw [continues, Bool.and_eq_true, decide_eq_true_eq] at hcont
    exact ⟨hm, (ha.self k hm).trans ((if_neg (not_not.2 hcont.1)).trans (if_pos hcont.2))⟩
  have hresumed : ∀ {k}, permitted k = true → emptied' k = false → t.ac[k] = resumedTo s.acked k (contextOf s.acked k) :=
    fun hp hn => (hnamed hp).2.trans (if_neg (Bool.eq_false_iff.1 hn))
  refine ⟨t, r, he, hw, ?_, ha.boards, fun k => ⟨?_, ?_, ?_, ?_, ?_, ?_, ?_⟩⟩
  · have heq := ha.eq
    rw [hmarks] at heq
    exact heq
  · refine (ha.pulses k).trans ?_
    show _ = if (permitted k && _ && _) = true then _ else _
    rw [hpermitted]
    simp only [Bool.and_eq_true, decide_eq_true_eq, and_assoc]
    rfl
  · rintro (hk | hk)
    · exact ha.other k (by rw [mem_chansOf, hk]; decide)
    · by_cases hm : k ∈ chansOf set
      · exact (ha.self k hm).trans (if_pos hk)
      · exact ha.other k hm
  · intro hk hr hp
    refine (ha.self k ((mem_chansOf set k).2 hk)).trans ?_
    exact (if_neg (not_not.2 hr)).trans (if_neg (by rw [show s.acked.chanPermit k = s.chanPermit k from rfl, hp]; decide))
  · exact fun hp hn => (hnamed hp).2.trans (if_pos hn)
  · exact fun hp hn harmed => (hresumed hp hn).trans (if_pos harmed)
  · intro hp hn hend
    have hon : (context k).st = .on := by
      have : (decide ((context k).st = .on) && decide ((context k).left = some 0) && decide ((cfg k).onTime ≠ 0)) = true := hend
      simp only [Bool.and_eq_true, decide_eq_true_eq] at this
      exact this.1.1
    exact (hresumed hp hn).trans ((if_neg (by rw [show (contextOf s.acked k).st = .on from hon]; decide)).trans (if_pos hend))
  · exact fun hp hn harmed hend => (hresumed hp hn).trans ((if_neg harmed).trans (if_neg (Bool.eq_false_iff.1 hend)))

end Sys2Proof.Proofs.Continue
end

section
/-! PROOF. The evaluation of the transit table, channel by channel (R37, R50 to R56). -/

namespace Sys2Proof.Proofs.Evaluation

open Sys2Proof Sys2Proof.Machine Sys2Proof.Proofs.Alarm Sys2Proof.Proofs.Event Sys2Proof.Proofs.ChannelActs

-- Proofs are elaborated in order: in the joined text the parallel ones would hold more threads at once than the memory limit allows.
set_option Elab.async false
open Sys2Proof.Proofs.ChannelCommands Sys2Proof.Proofs.Halt

/-! ### Records -/

theorem getLsbD_putBit (b : BitVec 4) (k j : Chan) (v : Bool) :
    (putBit b k v).getLsbD j.val = if j = k then v else b.getLsbD j.val := by
  revert b k j v; decide

/-- A record becomes served for a channel at the evaluation of its window (R37, R52). -/
def serves (s : State) (r : BoardRec) (k : Chan) : Bool :=
  occupies (s.chanCfg k) r && s.ac[k].marksServed && openAfter s k && (!s.tt.windows[k].isOpen || !r.inWin.getLsbD k.val)

/-- A record lies in a channel's window; a channel in mode OFF has none (R51). -/
def inside (s : State) (r : BoardRec) (k : Chan) : Bool :=
  if (s.chanCfg k).mode = .off then r.inWin.getLsbD k.val else occupies (s.chanCfg k) r

/-- A record after the evaluation of the windows of some channels. -/
def evaluated (s : State) (l : List Chan) (r : BoardRec) : BoardRec :=
  { r with
    served := r.served ||| Machine.setOf 4 allChans fun k => decide (k ∈ l) && serves s r k
    inWin := Machine.setOf 4 allChans fun k => if k ∈ l then inside s r k else r.inWin.getLsbD k.val }

theorem evaluated_served (s : State) (l : List Chan) (r : BoardRec) (k : Chan) :
    (evaluated s l r).served.getLsbD k.val = (r.served.getLsbD k.val || (decide (k ∈ l) && serves s r k)) := by
  rw [evaluated, BitVec.getLsbD_or, setOf_getLsbD, decide_eq_true (mem_allChans k), Bool.true_and]

theorem evaluated_inWin (s : State) (l : List Chan) (r : BoardRec) (k : Chan) :
    (evaluated s l r).inWin.getLsbD k.val = if k ∈ l then inside s r k else r.inWin.getLsbD k.val := by
  rw [evaluated, setOf_getLsbD, decide_eq_true (mem_allChans k), Bool.true_and]

/-- A record is known from what it is apart from its marks, and its marks channel by channel. -/
theorem rec_ext {x y : BoardRec} (hb : { x with served := 0, inWin := 0 } = { y with served := 0, inWin := 0 })
    (hs : ∀ k : Chan, x.served.getLsbD k.val = y.served.getLsbD k.val)
    (hi : ∀ k : Chan, x.inWin.getLsbD k.val = y.inWin.getLsbD k.val) : x = y := by
  obtain ⟨id, length, tag, lead, origin, sighted, missed, served, inWin⟩ := x
  obtain ⟨id', length', tag', lead', origin', sighted', missed', served', inWin'⟩ := y
  obtain rfl := served_ext hs
  obtain rfl := served_ext hi
  simp only [BoardRec.mk.injEq, and_true] at hb ⊢
  exact hb

theorem evaluated_nil (s : State) (r : BoardRec) : evaluated s [] r = r :=
  rec_ext rfl (fun k => by rw [evaluated_served]; simp) (fun k => by rw [evaluated_inWin]; simp)

theorem occupies_evaluated (c : ChanCfg) (s : State) (l : List Chan) (r : BoardRec) :
    occupies c (evaluated s l r) = occupies c r := rfl

theorem countP_map_evaluated (c : ChanCfg) (s : State) (l : List Chan) (table : List BoardRec) :
    (table.map (evaluated s l)).countP (occupies c) = table.countP (occupies c) := by
  rw [List.countP_map]
  rfl

/-- The marks of one channel more. -/
theorem inWindow_evaluated {s u : State} {l : List Chan} {k : Chan} (hk : k ∉ l) (hm : (s.chanCfg k).mode ≠ .off)
    (hcfg : u.chanCfg k = s.chanCfg k) (hac : u.ac[k] = s.ac[k]) (hwin : u.tt.windows[k] = s.tt.windows[k])
    (hopen : openAfter u k = openAfter s k) (r : BoardRec) :
    (evaluated s l r).inWindow (u.chanCfg k) k (u.ac[k].marksServed && openAfter u k)
        (!u.tt.windows[k].isOpen && openAfter u k) = evaluated s (l ++ [k]) r := by
  rw [hcfg, hac, hwin, hopen]
  refine rec_ext rfl (fun j => ?_) fun j => ?_
  · rw [evaluated_served]
    have hmark : (occupies (s.chanCfg k) (evaluated s l r) && (s.ac[k].marksServed && openAfter s k) &&
        (!s.tt.windows[k].isOpen && openAfter s k || !(evaluated s l r).inWin.getLsbD k.val)) = serves s r k := by
      rw [occupies_evaluated, evaluated_inWin, if_neg hk, serves]
      cases openAfter s k <;> simp
    show (if _ then _ else _ : BitVec 4).getLsbD j.val = _
    rw [hmark]
    by_cases hj : j = k
    · subst hj
      cases hs : serves s r j
      · rw [if_neg (by decide), evaluated_served, hs, Bool.and_false, Bool.and_false]
      · rw [if_pos rfl, getLsbD_or_twoPow]
        simp
    · split
      · rw [getLsbD_or_twoPow, evaluated_served]
        simp [hj]
      · rw [evaluated_served]
        simp [hj]
  · rw [evaluated_inWin]
    refine (getLsbD_putBit _ k j _).trans ?_
    by_cases hj : j = k
    · subst hj
      rw [if_pos rfl, if_pos (by simp), inside, if_neg hm, occupies_evaluated]
    · rw [if_neg hj, evaluated_inWin]
      simp [hj]

/-- The evaluation of a window that the channel has not, for its mode is OFF, marks nothing. -/
theorem evaluated_off {s : State} {l : List Chan} {k : Chan} (hk : k ∉ l) (hm : (s.chanCfg k).mode = .off) (r : BoardRec) :
    evaluated s l r = evaluated s (l ++ [k]) r := by
  have hserves : serves s r k = false := by simp [serves, occupies, hm]
  refine rec_ext rfl (fun j => ?_) fun j => ?_
  · rw [evaluated_served, evaluated_served]
    by_cases hj : j = k
    · subst hj
      simp [hserves]
    · simp [hj]
  · rw [evaluated_inWin, evaluated_inWin]
    by_cases hj : j = k
    · subst hj
      simp [hk, inside, hm]
    · simp [hj]

/-! ### The channel of a window -/

/-- The window of a channel opens at its evaluation (R52). -/
def opens (s : State) (k : Chan) : Bool := !s.tt.windows[k].isOpen && openAfter s k

/-- A run finds its window empty (R71). -/
def runEnds (s : State) (k : Chan) : Bool := s.ac[k].inRun && decide (s.tt.table.countP (occupies (s.chanCfg k)) = 0)

/-- A channel after the evaluation of its window (R63, R71). -/
def evaluatedAs (s : State) (k : Chan) : Channel :=
  if (s.chanCfg k).mode = .board ∧ s.ac[k].st = .armed ∧ opens s k = true then s.ac[k].begins (s.chanCfg k)
  else if (s.chanCfg k).mode = .board ∧ runEnds s k = true then
    (s.ac[k].stopsIn (s.chanCfg k) .window .idle).ends (s.chanCfg k) false .window
  else s.ac[k]

/-- The evaluation of a window counts a steady pulse that it ends (R69, R71). -/
def evaluationCounts (s : State) (k : Chan) : Bool :=
  decide ((s.chanCfg k).mode = .board) && runEnds s k && s.steadyOn k

theorem unserved_of_empty {s : State} {k : Chan} (h : s.tt.table.countP (occupies (s.chanCfg k)) = 0) :
    s.unservedPresent k = false := by
  rw [State.unservedPresent, List.any_eq_false]
  intro r hr hu
  exact List.countP_eq_zero.1 h r hr (Bool.and_eq_true_iff.1 hu).1

/-- A window that opens holds a board. -/
theorem count_of_opens {s : State} {k : Chan} (h : opens s k = true) : s.tt.table.countP (occupies (s.chanCfg k)) ≠ 0 := by
  intro h0
  rw [opens, openAfter, unserved_of_empty h0, h0] at h
  simp at h

theorem windowOpens_acts {t : State} (k : Chan) :
    ActsOn t (t.windowOpens k) k
      (if (t.chanCfg k).mode = .board ∧ t.ac[k].st = .armed then t.ac[k].begins (t.chanCfg k) else t.ac[k]) false false := by
  unfold State.windowOpens
  split
  · exact synchronize_acts t k
  · exact .refl t k

theorem windowEmpty_acts {t : State} {k : Chan} (hu : t.unservedPresent k = false) :
    ActsOn t (t.windowEmpty k) k
      (if (t.chanCfg k).mode = .board ∧ t.ac[k].inRun = true then
        (t.ac[k].stopsIn (t.chanCfg k) .window .idle).ends (t.chanCfg k) false .window
      else t.ac[k])
      (decide ((t.chanCfg k).mode = .board) && t.ac[k].inRun && t.steadyOn k) false := by
  unfold State.windowEmpty
  split
  · rename_i h
    have he := endRun_acts t k .window (.inr (.inr (.inl rfl)))
    rw [hu] at he
    exact he.as he.self (by rw [decide_eq_true h.1, h.2]; rfl) (by simp)
  · rename_i h
    refine (ActsOn.refl t k).as rfl ?_ rfl
    have hno : (decide ((t.chanCfg k).mode = .board) && t.ac[k].inRun) = false := by
      rw [Bool.eq_false_iff, Ne, Bool.and_eq_true, decide_eq_true_eq]
      exact h
    rw [hno, Bool.false_and]

theorem windowed_count (u : State) (k : Chan) (isOpen : Bool) :
    (windowed u k isOpen).tt.table.countP (occupies (u.chanCfg k)) = u.tt.table.countP (occupies (u.chanCfg k)) := by
  refine (List.countP_map ..).trans ?_
  rfl

theorem evalWindow_acts {u : State} {k : Chan} (hm : (u.chanCfg k).mode ≠ .off) :
    ActsOn (windowed u k (openAfter u k)) (u.evalWindow k) k (evaluatedAs u k) (evaluationCounts u k) false := by
  rw [evalWindow_eq, if_neg hm]
  unfold evaluatedAs evaluationCounts runEnds
  by_cases ho : opens u k = true
  · rw [if_pos (show (!u.tt.windows[k].isOpen && openAfter u k) = true from ho), decide_eq_false (count_of_opens ho)]
    simp only [ho, and_true, Bool.and_false, Bool.false_eq_true, and_false, if_false, Bool.false_and]
    exact windowOpens_acts k
  · rw [if_neg (show ¬ (!u.tt.windows[k].isOpen && openAfter u k) = true from ho)]
    simp only [ho, Bool.false_eq_true, and_false, if_false]
    split
    · rename_i h0
      have hu : (windowed u k (openAfter u k)).unservedPresent k = false :=
        unserved_of_empty ((windowed_count u k _).trans h0)
      rw [decide_eq_true h0, Bool.and_true]
      exact windowEmpty_acts hu
    · rename_i h0
      rw [decide_eq_false h0]
      simp only [Bool.and_false, Bool.false_eq_true, and_false, if_false, Bool.false_and]
      exact .refl _ k

/-! ### The windows in turn -/

/-- From `s` to `u` the windows of some channels have been evaluated, each as `s` was. -/
structure WindowsOf (s u : State) (l : List Chan) : Prop where
  same : u = { s with ac := u.ac, tt.table := s.tt.table.map (evaluated s l), tt.totals := u.tt.totals
                      tt.windows := u.tt.windows }
  channel : ∀ k ∈ l, u.ac[k] = evaluatedAs s k
  otherChannel : ∀ k, k ∉ l → u.ac[k] = s.ac[k]
  window : ∀ k ∈ l, (s.chanCfg k).mode ≠ .off →
    u.tt.windows[k] = { isOpen := openAfter s k, count := s.tt.table.countP (occupies (s.chanCfg k)) }
  otherWindow : ∀ k, k ∉ l ∨ (s.chanCfg k).mode = .off → u.tt.windows[k] = s.tt.windows[k]
  boards : u.tt.totals[(0 : Fin 5)] = s.tt.totals[(0 : Fin 5)]
  pulses : ∀ k, u.tt.totals[pulsesTotal k] =
    if k ∈ l ∧ evaluationCounts s k = true then s.tt.totals[pulsesTotal k].incr else s.tt.totals[pulsesTotal k]

theorem WindowsOf.nil (s : State) : WindowsOf s s [] where
  same := by rw [show evaluated s [] = id from funext fun r => evaluated_nil s r, List.map_id]
  channel _ h := absurd h (by simp)
  otherChannel _ _ := rfl
  window _ h := absurd h (by simp)
  otherWindow _ _ := rfl
  boards := rfl
  pulses k := by simp

theorem WindowsOf.table {s u : State} {l : List Chan} (h : WindowsOf s u l) : u.tt.table = s.tt.table.map (evaluated s l) := by
  rw [h.same]

theorem WindowsOf.cl {s u : State} {l : List Chan} (h : WindowsOf s u l) : u.cl = s.cl := by rw [h.same]

theorem WindowsOf.chanCfg {s u : State} {l : List Chan} (h : WindowsOf s u l) (k : Chan) : u.chanCfg k = s.chanCfg k := by
  unfold State.chanCfg
  rw [h.cl]

theorem WindowsOf.count {s u : State} {l : List Chan} (h : WindowsOf s u l) (k : Chan) :
    u.tt.table.countP (occupies (u.chanCfg k)) = s.tt.table.countP (occupies (s.chanCfg k)) := by
  rw [h.table, h.chanCfg, countP_map_evaluated]

theorem WindowsOf.unserved {s u : State} {l : List Chan} (h : WindowsOf s u l) {k : Chan} (hk : k ∉ l) :
    u.unservedPresent k = s.unservedPresent k := by
  unfold State.unservedPresent
  rw [h.table, h.cl, List.any_map]
  congr 1
  funext r
  rw [Function.comp_apply, occupies_evaluated, BoardRec.servedFor, evaluated_served, decide_eq_false hk, Bool.false_and,
    Bool.or_false]
  rfl

theorem WindowsOf.openAfter {s u : State} {l : List Chan} (h : WindowsOf s u l) {k : Chan} (hk : k ∉ l) :
    openAfter u k = openAfter s k := by
  unfold Event.openAfter
  rw [h.otherWindow k (.inl hk), h.count, h.unserved hk]

theorem WindowsOf.evaluatedAs {s u : State} {l : List Chan} (h : WindowsOf s u l) {k : Chan} (hk : k ∉ l) :
    evaluatedAs u k = evaluatedAs s k ∧ evaluationCounts u k = evaluationCounts s k := by
  unfold Evaluation.evaluatedAs evaluationCounts opens runEnds State.steadyOn
  rw [h.count, h.chanCfg, h.otherChannel k hk, h.otherWindow k (.inl hk), h.openAfter hk]
  exact ⟨rfl, rfl⟩

/-- A channel in mode OFF has no window. -/
theorem evaluatedAs_off {s : State} {k : Chan} (h : (s.chanCfg k).mode = .off) :
    evaluatedAs s k = s.ac[k] ∧ evaluationCounts s k = false := by
  unfold evaluatedAs evaluationCounts
  rw [h]
  exact ⟨rfl, rfl⟩

/-- The window of one channel more. -/
theorem WindowsOf.snoc {s u : State} {l : List Chan} (h : WindowsOf s u l) {k : Chan} (hk : k ∉ l) :
    WindowsOf s (u.evalWindow k) (l ++ [k]) := by
  by_cases hm : (s.chanCfg k).mode = .off
  · have hu : u.evalWindow k = u := by rw [evalWindow_eq, if_pos ((congrArg ChanCfg.mode (h.chanCfg k)).trans hm)]
    obtain ⟨hac, hcount⟩ := evaluatedAs_off hm
    rw [hu]
    refine ⟨?_, fun j hj => ?_, fun j hj => h.otherChannel j fun hl => hj (by simp [hl]), fun j hj hmj => ?_, fun j hj => ?_,
      h.boards, fun j => ?_⟩
    · rw [← funext (evaluated_off hk hm)]
      exact h.same
    · obtain hj | hj := List.mem_append.1 hj
      · exact h.channel j hj
      · obtain rfl := List.mem_singleton.1 hj
        rw [hac, h.otherChannel j hk]
    · obtain hj | hj := List.mem_append.1 hj
      · exact h.window j hj hmj
      · exact absurd (List.mem_singleton.1 hj ▸ hm) hmj
    · exact h.otherWindow j (hj.imp_left fun hn hl => hn (by simp [hl]))
    · rw [h.pulses]
      by_cases hj : j = k
      · subst hj
        simp [hcount]
      · simp [hj]
  · have hm' : (u.chanCfg k).mode ≠ .off := by rwa [h.chanCfg]
    have ha := evalWindow_acts hm'
    have hw := ha.within
    have ht := ha.table
    rw [ByChannels] at hw
    rw [map_marked_none _ _ (fun _ => Bool.and_false _)] at ht
    obtain ⟨has, hcounts⟩ := h.evaluatedAs hk
    rw [has, hcounts] at ha
    have hrec : u.tt.table.map (fun r => r.inWindow (u.chanCfg k) k (u.ac[k].marksServed && Event.openAfter u k)
        (!u.tt.windows[k].isOpen && Event.openAfter u k)) = s.tt.table.map (evaluated s (l ++ [k])) := by
      rw [h.table, List.map_map]
      exact List.map_congr_left fun r _ => inWindow_evaluated hk hm (h.chanCfg k) (h.otherChannel k hk)
        (h.otherWindow k (.inl hk)) (h.openAfter hk) r
    have htable : (u.evalWindow k).tt.table = s.tt.table.map (evaluated s (l ++ [k])) := ht.trans hrec
    have hwindows : (u.evalWindow k).tt.windows =
        u.tt.windows.set k { isOpen := Event.openAfter s k, count := s.tt.table.countP (occupies (s.chanCfg k)) } := by
      rw [hw, ← h.count, ← h.openAfter hk]
      rfl
    have hkeep : ∀ j, j ≠ k → (u.evalWindow k).tt.windows[j] = u.tt.windows[j] := by
      intro j hj
      have hv : k.val ≠ j.val := fun e => hj (Fin.ext e.symm)
      rw [hwindows]
      simp [hv]
    refine ⟨?_, fun j hj => ?_, fun j hj => ?_, fun j hj hmj => ?_, fun j hj => ?_, ?_, fun j => ?_⟩
    · rw [← htable]
      have hsame := h.same
      generalize u.evalWindow k = v at hw ⊢
      rw [hw]
      unfold windowed
      rw [hsame]
    · by_cases he : j = k
      · subst he
        exact ha.self
      · rw [ha.other j he]
        exact h.channel j (by simpa [he] using hj)
    · obtain ⟨hl, he⟩ : j ∉ l ∧ j ≠ k := by simpa using hj
      exact (ha.other j he).trans (h.otherChannel j hl)
    · by_cases he : j = k
      · subst he
        rw [hwindows]
        simp
      · rw [hkeep j he]
        exact h.window j (by simpa [he] using hj) hmj
    · have he : j ≠ k := by
        rintro rfl
        exact hj.elim (fun hn => hn (by simp)) hm
      rw [hkeep j he]
      exact h.otherWindow j (hj.imp_left fun hn hl => hn (by simp [hl]))
    · rw [ha.totals, pulsed_boards]
      exact h.boards
    · rw [ha.totals]
      by_cases he : j = k
      · subst he
        rw [pulsed_self]
        show (if _ then (u.tt.totals[pulsesTotal j]).incr else u.tt.totals[pulsesTotal j]) = _
        rw [h.pulses]
        simp [hk]
      · rw [pulsed_other _ he]
        refine (h.pulses j).trans ?_
        simp [he]

theorem foldl_evalWindow (s : State) (l : List Chan) (hl : l.Nodup) : WindowsOf s (l.foldl State.evalWindow s) l := by
  induction l using List.reverseRecOn with
  | nil => exact .nil s
  | append_singleton l k ih =>
    obtain ⟨hl, _, hd⟩ := List.nodup_append.1 hl
    rw [List.foldl_append]
    exact (ih hl).snoc fun h => hd k h k (by simp) rfl

/-- All the windows in turn. -/
theorem windows_of_all (s : State) : WindowsOf s (allChans.foldl State.evalWindow s) allChans :=
  foldl_evalWindow s allChans (by decide)

end Sys2Proof.Proofs.Evaluation
end

section
/-! PROOF. What the evaluation of the table answers (R35 to R37, R49 to R56). -/

namespace Sys2Proof.Proofs.TableEvaluated

open Sys2Proof Sys2Proof.Machine Sys2Proof.Proofs.Alarm Sys2Proof.Proofs.Event Sys2Proof.Proofs.ChannelActs

-- Proofs are elaborated in order: in the joined text the parallel ones would hold more threads at once than the memory limit allows.
set_option Elab.async false
open Sys2Proof.Proofs.Evaluation

/-! ### Records and positions -/

theorem occupies_iff (c : ChanCfg) (r : BoardRec) :
    occupies c r = true ↔
      c.mode ≠ .off ∧ (c.nozzle : Int) - c.leadMargin ≤ r.lead ∧ r.trail ≤ (c.nozzle : Int) + c.trailMargin := by
  simp only [occupies, Bool.and_eq_true, decide_eq_true_eq, and_assoc]

theorem inSpan_iff (c : SpanCfg) (r : BoardRec) :
    inSpan c r = true ↔ c.used = true ∧ c.first ≤ r.lead ∧ r.trail ≤ (c.last : Int) := by
  simp only [inSpan, Bool.and_eq_true, decide_eq_true_eq, and_assoc]

/-- The least number of steps of `e` that cover a distance is the quotient rounded up (R49). -/
theorem ceil_div_eq {e d n : Nat} (he : 0 < e) (hn : d ≤ n * e) (hleast : ∀ m < n, m * e < d) : (d + (e - 1)) / e = n := by
  refine Nat.div_eq_of_lt_le ?_ ?_
  · obtain _ | m := n
    · omega
    · have := hleast m (by omega)
      rw [Nat.add_mul, Nat.one_mul]
      omega
  · rw [Nat.add_mul, Nat.one_mul]
    omega

theorem timeToReach_eq {e lead x n : Nat} (hx : lead < x) (he : 0 < e) (hn : x ≤ lead + n * e)
    (hleast : ∀ m < n, lead + m * e < x) : timeToReach e lead x = min 65535 n := by
  have hd : (x - lead + (e - 1)) / e = n :=
    ceil_div_eq he (by omega) fun m hm => by have := hleast m hm; omega
  unfold timeToReach
  rw [if_neg (by omega), if_neg (by omega), hd]

theorem marksServed_eq (c : Channel) :
    c.marksServed = decide (c.st = .armed ∨ c.st = .delay ∨ c.st = .on ∨ c.st = .off ∨ c.st = .halting) := by
  unfold Channel.marksServed
  cases c.st <;> rfl

theorem unservedPresent_iff (s : State) (k : Chan) :
    s.unservedPresent k = true ↔ ∃ r ∈ s.tt.table, occupies s.cl.image.chans[k] r = true ∧ r.servedFor k = false := by
  simp only [State.unservedPresent, List.any_eq_true, Bool.and_eq_true, Bool.not_eq_true']

/-! ### The parts of an evaluation -/

theorem not_passed (s : State) (r : BoardRec) :
    (!s.passed r) = (decide (r.trail ≤ (s.cl.image.station.forgetPosition : Int)) && decide (r.lead < 8388607)) := by
  unfold State.passed
  rw [Bool.not_or, ← decide_not, ← decide_not]
  exact congrArg₂ and (decide_eq_decide.2 Int.not_lt) (decide_eq_decide.2 Nat.not_le)

theorem keptRecords_eq (s : State) :
    keptRecords s =
      (s.tt.table.map fun r =>
        { r with
          missed := r.missed ||
            (s.cl.image.station.sensor && !s.cl.image.station.entrySource && !r.sighted &&
              decide (s.cl.image.station.sensorPosition + 1000 * s.cl.image.station.captureWindow < r.lead)) }).filter
        fun r => decide (r.trail ≤ (s.cl.image.station.forgetPosition : Int)) && decide (r.lead < 8388607) := by
  rw [keptRecords, funext (not_passed s)]
  rfl

theorem kept_table (s : State) : (kept s).tt.table = keptRecords s := rfl

theorem kept_boards (s : State) :
    (kept s).tt.totals[(0 : Fin 5)] =
      Nat.repeat Total.incr (s.tt.table.length - (keptRecords s).length) s.tt.totals[(0 : Fin 5)] := by
  have h : (kept s).tt.totals =
      s.tt.totals.set (0 : Fin 5) (Nat.repeat Total.incr ((s.tt.table.map s.markMissed).length - (keptRecords s).length)
        s.tt.totals[(0 : Fin 5)]) := rfl
  rw [h, List.length_map]
  simp

theorem kept_pulses (s : State) (k : Chan) : (kept s).tt.totals[pulsesTotal k] = s.tt.totals[pulsesTotal k] := by
  have h : (kept s).tt.totals =
      s.tt.totals.set (0 : Fin 5) (Nat.repeat Total.incr ((s.tt.table.map s.markMissed).length - (keptRecords s).length)
        s.tt.totals[(0 : Fin 5)]) := rfl
  rw [h]
  simp [pulsesTotal]

theorem kept_overflow (s : State) :
    (kept s).tt.overflow =
      (s.tt.overflow && !(decide (24 ≤ s.tt.table.length) && decide ((keptRecords s).length < 24))) := by
  have h : (kept s).tt.overflow =
      (s.tt.overflow && !(decide (24 ≤ (s.tt.table.map s.markMissed).length) && decide ((keptRecords s).length < 24))) := rfl
  rw [h, List.length_map]

/-- An evaluation is that of the windows, on what the removals leave, and then of the counts. -/
theorem evaluate_windows (s : State) : ∃ u, s.evaluate = u.evalCounts ∧ WindowsOf (kept s) u allChans :=
  ⟨_, evaluate_eq s, windows_of_all (kept s)⟩

/-- A count that asks nothing of the marks is the same after them. -/
theorem countP_evaluated (p : BoardRec → Bool) (s : State) (l : List Chan) (table : List BoardRec)
    (hp : ∀ r, p (evaluated s l r) = p r) : (table.map (evaluated s l)).countP p = table.countP p := by
  rw [List.countP_map]
  exact List.countP_congr fun r _ => by rw [Function.comp_apply, hp]

theorem evalCounts_due (u : State) (i : LoopIx) :
    u.evalCounts.tt.due[i] = min 3 (u.tt.table.countP (isDue u.effectiveSpeed u.cl.image.loops[i])) := by
  match i with
  | 0 => rfl
  | 1 => rfl

theorem evaluate_due (s : State) (i : LoopIx) :
    s.evaluate.tt.due[i] = min 3 ((keptRecords s).countP (isDue s.effectiveSpeed s.cl.image.loops[i])) := by
  obtain ⟨u, he, hw⟩ := evaluate_windows s
  have hspeed : u.effectiveSpeed = s.effectiveSpeed := by
    rw [hw.same]
    rfl
  have hcl : u.cl = s.cl := hw.cl
  rw [he, evalCounts_due, hspeed, hcl, hw.table, countP_evaluated _ _ _ _ fun _ => rfl, kept_table]

theorem evaluate_fume (s : State) :
    s.evaluate.tt.fume =
      (keptRecords s).countP fun r => inSpan s.cl.image.extraction.span1 r || inSpan s.cl.image.extraction.span2 r := by
  obtain ⟨u, he, hw⟩ := evaluate_windows s
  have hcl : u.cl = s.cl := hw.cl
  have hfume : u.evalCounts.tt.fume = u.tt.table.countP fun r =>
      inSpan u.cl.image.extraction.span1 r || inSpan u.cl.image.extraction.span2 r := rfl
  rw [he, hfume, hcl, hw.table, countP_evaluated _ _ _ _ fun _ => rfl, kept_table]

/-- The window of a channel after an evaluation (R52). -/
theorem evaluate_window (s : State) {k : Chan} (h : (s.chanCfg k).mode ≠ .off) :
    s.evaluate.tt.windows[k] =
      { isOpen := openAfter (kept s) k, count := (keptRecords s).countP (occupies (s.chanCfg k)) } := by
  obtain ⟨u, he, hw⟩ := evaluate_windows s
  rw [he]
  exact hw.window k (mem_allChans k) h

theorem evaluate_window_off (s : State) {k : Chan} (h : (s.chanCfg k).mode = .off) :
    s.evaluate.tt.windows[k] = s.tt.windows[k] := by
  obtain ⟨u, he, hw⟩ := evaluate_windows s
  rw [he]
  exact hw.otherWindow k (.inr h)

theorem evaluate_boards (s : State) :
    s.evaluate.tt.totals[(0 : Fin 5)] =
      Nat.repeat Total.incr (s.tt.table.length - (keptRecords s).length) s.tt.totals[(0 : Fin 5)] := by
  obtain ⟨u, he, hw⟩ := evaluate_windows s
  rw [he]
  exact hw.boards.trans (kept_boards s)

theorem evaluate_overflow (s : State) :
    s.evaluate.tt.overflow =
      (s.tt.overflow && !(decide (24 ≤ s.tt.table.length) && decide ((keptRecords s).length < 24))) := by
  obtain ⟨u, he, hw⟩ := evaluate_windows s
  have ho : u.evalCounts.tt.overflow = u.tt.overflow := rfl
  rw [he, ho, ← kept_overflow, hw.same]

theorem evaluate_table (s : State) : s.evaluate.tt.table = (keptRecords s).map (evaluated (kept s) allChans) := by
  obtain ⟨u, he, hw⟩ := evaluate_windows s
  rw [he]
  exact hw.table

theorem occupies_off {s : State} {k : Chan} (h : (s.chanCfg k).mode = .off) (r : BoardRec) :
    occupies (s.chanCfg k) r = false := by
  unfold occupies
  rw [h]
  rfl

theorem serves_kept (s : State) (r : BoardRec) (k : Chan) :
    serves (kept s) r k =
      (occupies s.cl.image.chans[k] r && s.ac[k].marksServed && s.evaluate.tt.windows[k].isOpen &&
        (!s.tt.windows[k].isOpen || !r.inWin.getLsbD k.val)) := by
  by_cases hm : (s.chanCfg k).mode = .off
  · have hno : occupies s.cl.image.chans[k] r = false := occupies_off hm r
    have hkept : serves (kept s) r k = (occupies s.cl.image.chans[k] r && s.ac[k].marksServed && openAfter (kept s) k &&
      (!s.tt.windows[k].isOpen || !r.inWin.getLsbD k.val)) := rfl
    rw [hkept, hno]
    simp only [Bool.false_and]
  · rw [evaluate_window s hm]
    rfl

/-- Settles O17: what is left of the table by the removals is marked window by window. -/
theorem tableIsEvaluated : Obligations.TableIsEvaluated := by
  refine ⟨occupies_iff, inSpan_iff, fun r k => ⟨rfl, rfl⟩,
    fun e lead x => ⟨fun h => if_pos h, fun h he => (if_neg (Nat.not_le.2 h)).trans (if_pos he),
      fun hx he n hn hl => timeToReach_eq hx he hn hl⟩, fun s => ⟨rfl, unservedPresent_iff s, ?_⟩⟩
  intro c marked kept' t serves' inside'
  have hkept : kept' = keptRecords s := (keptRecords_eq s).symm
  rw [hkept]
  refine ⟨evaluate_within s, ?_, evaluate_boards s, evaluate_overflow s,
    fun k hm => ⟨congrArg Window.count (evaluate_window s hm), congrArg Window.isOpen (evaluate_window s hm)⟩,
    fun k hm => evaluate_window_off s hm, fun k => marksServed_eq _, evaluate_due s, evaluate_fume s⟩
  refine (evaluate_table s).trans (List.map_congr_left fun r _ => ?_)
  unfold evaluated
  simp only [mem_allChans, decide_true, Bool.true_and, if_true, serves_kept]
  rfl

end Sys2Proof.Proofs.TableEvaluated
end

section
/-! PROOF. Phases, inputs, permits and windows: what each brings about at a channel (R64 to R76, R81). -/

namespace Sys2Proof.Proofs.ChannelEvents

open Sys2Proof Sys2Proof.Machine Sys2Proof.Proofs.Step Sys2Proof.Proofs.Alarm Sys2Proof.Proofs.Event

-- Proofs are elaborated in order: in the joined text the parallel ones would hold more threads at once than the memory limit allows.
set_option Elab.async false
open Sys2Proof.Proofs.ChannelActs Sys2Proof.Proofs.ChannelCommands Sys2Proof.Proofs.Halt Sys2Proof.Proofs.Continue
open Sys2Proof.Proofs.Evaluation Sys2Proof.Proofs.TableEvaluated

/-! ### An act as a state -/

theorem set_of_members {v w : Vector Channel 4} {k : Chan} {x : Channel} (hs : w[k] = x) (ho : ∀ j, j ≠ k → w[j] = v[j]) :
    w = v.set k x := by
  ext1 i hi
  by_cases he : (⟨i, hi⟩ : Chan) = k
  · subst he
    exact hs.trans (by simp)
  · have hv : k.val ≠ i := fun e => he (Fin.ext e.symm)
    exact (ho ⟨i, hi⟩ he).trans (by simp [hv])

/-- The state after an act. -/
theorem acts_eq {s t : State} {k : Chan} {x : Channel} {c m : Bool} (h : ActsOn s t k x c m) :
    t = { s with
      ac := s.ac.set k x
      tt.totals := pulsed s.tt.totals k c
      tt.table := s.tt.table.map (BoardRec.marked s.cl.image fun j => decide (j = k) && m) } := by
  have hw := h.within
  rw [ByChannels, h.totals, h.table, set_of_members h.self h.other] at hw
  exact hw

/-- The state after an act that marks nothing. -/
theorem acts_eq_unmarked {s t : State} {k : Chan} {x : Channel} {c : Bool} (h : ActsOn s t k x c false) :
    t = { s with ac := s.ac.set k x, tt.totals := pulsed s.tt.totals k c } := by
  have he := acts_eq h
  rw [map_marked_none _ _ (fun _ => Bool.and_false _)] at he
  exact he

/-! ### Phases (R66 to R68, R81) -/

theorem inPhase_of {s : State} {k : Chan} {st : ChanState} (ht : s.ac[k].timer.isSome = true) (h : s.ac[k].st = st) :
    s.inPhase k st = true := by
  rw [State.inPhase, decide_eq_true h, ht]
  rfl

theorem enterOn_eq (s : State) (k : Chan) :
    s.enterOn k =
      { s with
        ac := s.ac.set k
          { s.ac[k] with
            st := .on
            timer := if s.cl.image.chans[k].onTime = 0 then none
              else some (s.cl.image.chans[k].onTime * s.cl.image.chans[k].onBase) } } := by
  unfold State.enterOn ChanCfg.steady
  simp only [decide_eq_true_eq]
  rfl

theorem haltingEnds_eq (s : State) (k : Chan) :
    (s.countPulse k).setChan k { (s.countPulse k).ac[k] with st := .idle, timer := none } =
      { s with
        ac := s.ac.set k { s.ac[k] with st := .idle, timer := none, pulses := min 65535 (s.ac[k].pulses + 1) }
        tt.totals := s.tt.totals.set (pulsesTotal k) s.tt.totals[pulsesTotal k].incr } := by
  have h := (countPulse_acts s k).trans (setChan_acts (s.countPulse k) k
    { (s.countPulse k).ac[k] with st := .idle, timer := none }) (.inr rfl)
  rw [acts_eq_unmarked h, countPulse_self]
  rfl

/-- Settles O27. -/
theorem phasesExpire : Obligations.PhasesExpire := by
  intro s k ht c on counts rearms' marks
  refine ⟨fun h => exec_of ?_, fun h => exec_of ?_, fun h => exec_of ?_, fun h h0 => exec_of ?_⟩
  · exact (if_pos (inPhase_of ht h)).trans (enterOn_eq s k)
  · exact (if_pos (inPhase_of ht h)).trans (enterOn_eq s k)
  · exact (if_pos (inPhase_of ht h)).trans (haltingEnds_eq s k)
  · refine (if_pos (inPhase_of ht h)).trans ((acts_eq (pulseEnds_acts s k h0)).trans ?_)
    have hmarks : (fun j => decide (j = k) &&
        ((if (s.chanCfg k).countLimit ≠ 0 ∧ min 65535 (s.ac[k].pulses + 1) = (s.chanCfg k).countLimit then
            (s.chanCfg k).rearmCount
          else decide ((s.chanCfg k).period = 0) && (s.chanCfg k).rearmSingle) &&
          (decide ((s.chanCfg k).mode = .board) && s.unservedPresent k))) = marks := by
      funext j
      show _ = (decide (j = k) && (if decide _ = true then _ else _) && _ && _)
      simp only [decide_eq_true_eq, Bool.and_assoc]
      rfl
    rw [hmarks]
    rfl

/-! ### Inputs (R64, R72, R145) -/

theorem setChan_eq (s : State) (k : Chan) (x : Channel) : s.setChan k x = { s with ac := s.ac.set k x } := rfl

theorem synchronize_eq (s : State) (k : Chan) : s.synchronize k = { s with ac := s.ac.set k (s.ac[k].begins (s.chanCfg k)) } :=
  acts_eq_unmarked (synchronize_acts s k)

theorem channelInRun_iff (c : Channel) : c.inRun = true ↔ c.st = .delay ∨ c.st = .on ∨ c.st = .off := by
  unfold Channel.inRun
  cases c.st <;> decide

theorem ends_of_not_board {c : ChanCfg} (h : c.mode ≠ .board) (u v : Bool) (cause : Cause) (x : Channel) :
    x.ends c u cause = x.ends c v cause := by
  unfold Channel.ends
  simp only [arms_of_not_board h u v]

theorem inputEnds_eq {s : State} {k : Chan} (h : (s.chanCfg k).mode = .input) :
    s.endRun k .inputEnd =
      { s with
        ac := s.ac.set k ((s.ac[k].stopsIn (s.chanCfg k) .inputEnd .idle).ends (s.chanCfg k) false .inputEnd)
        tt.totals :=
          if s.ac[k].st = .on ∧ (s.chanCfg k).onTime = 0 then s.tt.totals.set (pulsesTotal k) s.tt.totals[pulsesTotal k].incr
          else s.tt.totals } := by
  have ha := endRun_acts s k .inputEnd (.inr (.inr (.inr rfl)))
  rw [ends_of_not_board (by rw [h]; decide) _ false, decide_eq_false (by rw [h]; decide), Bool.false_and, Bool.and_false] at ha
  rw [acts_eq_unmarked ha]
  unfold pulsed State.steadyOn ChanCfg.steady
  simp only [Bool.and_eq_true, decide_eq_true_eq]

/-- Settles O28. -/
theorem inputsAct : Obligations.InputsAct := by
  intro s k c
  refine ⟨fun hp ho hm ha => exec_of ?_, fun hp hn => exec_of ?_, fun hp ho hm hr => exec_of ?_, fun hp hn => exec_of ?_, rfl, rfl,
    fun _ _ => rfl⟩
  · refine (if_neg (Bool.eq_false_iff.1 hp)).trans ((if_pos ?_).trans (synchronize_eq _ k))
    simp only [Bool.and_eq_true, decide_eq_true_eq]
    exact ⟨⟨ho, hm⟩, ha⟩
  · refine (if_neg (Bool.eq_false_iff.1 hp)).trans (if_neg ?_)
    simp only [Bool.and_eq_true, decide_eq_true_eq]
    rintro ⟨⟨ho, hm⟩, ha⟩
    exact hn.elim (fun h => Bool.eq_false_iff.1 h ho) fun h => h.elim (· hm) (· ha)
  · refine (if_neg (Bool.eq_false_iff.1 hp)).trans ((if_pos ?_).trans (inputEnds_eq hm))
    simp only [Bool.and_eq_true, decide_eq_true_eq]
    exact ⟨⟨ho, hm⟩, (channelInRun_iff _).2 hr⟩
  · refine (if_neg (Bool.eq_false_iff.1 hp)).trans (if_neg ?_)
    simp only [Bool.and_eq_true, decide_eq_true_eq]
    rintro ⟨⟨ho, hm⟩, hr⟩
    refine hn.elim (fun h => Bool.eq_false_iff.1 h ho) fun h => h.elim (· hm) fun h => ?_
    exact ((channelInRun_iff _).1 hr).elim h.1 fun h' => h'.elim h.2.1 h.2.2

end Sys2Proof.Proofs.ChannelEvents
end

section
/-! PROOF. How the channels follow their permits, their windows and the process state (R63, R71, R74 to R76). -/

namespace Sys2Proof.Proofs.ChannelReaders

open Sys2Proof Sys2Proof.Machine Sys2Proof.Proofs.Step Sys2Proof.Proofs.Alarm Sys2Proof.Proofs.Event

-- Proofs are elaborated in order: in the joined text the parallel ones would hold more threads at once than the memory limit allows.
set_option Elab.async false
open Sys2Proof.Proofs.ChannelActs Sys2Proof.Proofs.ChannelCommands Sys2Proof.Proofs.Halt Sys2Proof.Proofs.Continue
open Sys2Proof.Proofs.Evaluation Sys2Proof.Proofs.TableEvaluated

/-! ### Permits (R74, R75) -/

/-- A channel after it has read its permit, `occupied` saying that its window is. -/
def Channel.reads (c : ChanCfg) (permit occupied : Bool) (x : Channel) : Channel :=
  if permit then (if x.st = .blocked then x.arms c false else x)
  else if x.st = .armed ∨ x.inRun = true then { x.stopsIn c .permit .blocked with blockedMark := occupied }
  else if x.st = .halting then { x with st := .idle, timer := none }
  else x

theorem permitReturns_acts (s : State) (k : Chan) (occupied : Bool) :
    ActsOn s (s.permitReturns k) k (Channel.reads (s.chanCfg k) true occupied s.ac[k]) false (decide (s.ac[k].st = .blocked)) := by
  unfold State.permitReturns
  split
  · rename_i hb
    have hmark := markPresent_acts s k
    have harm := enterArmed_acts (s.markPresent k) k
    rw [hmark.chanCfg, hmark.unserved, hmark.self] at harm
    refine (hmark.trans harm (.inl rfl)).as (harm.self.trans ?_) rfl (decide_eq_true hb).symm
    rw [Channel.reads, if_pos rfl, if_pos hb, decide_eq_true rfl, Bool.and_self, Bool.not_true, Bool.and_false]
  · rename_i hb
    exact (ActsOn.refl s k).as (if_neg hb).symm rfl (decide_eq_false hb).symm

theorem permitLost_acts (s : State) (k : Chan) :
    ActsOn s (s.permitLost k) k (Channel.reads (s.chanCfg k) false (s.windowOccupied k) s.ac[k]) (s.steadyOn k) false := by
  have hblock : (s.ac[k].st = .armed ∨ s.ac[k].inRun = true) →
      ActsOn s (s.enterBlocked k) k (Channel.reads (s.chanCfg k) false (s.windowOccupied k) s.ac[k]) (s.steadyOn k) false :=
    fun h => (enterBlocked_acts s k).as ((enterBlocked_self s k).trans (if_pos h).symm) rfl rfl
  unfold State.permitLost
  split
  · rename_i hs
    exact hblock (.inl hs)
  · rename_i hs
    exact hblock (.inr (by rw [Channel.inRun, hs]))
  · rename_i hs
    exact hblock (.inr (by rw [Channel.inRun, hs]))
  · rename_i hs
    exact hblock (.inr (by rw [Channel.inRun, hs]))
  · rename_i hs
    refine (setChan_acts s k _).as ((setChan_self s k _).trans ?_) (steadyOn_of_not_on (by rw [hs]; decide)).symm rfl
    rw [Channel.reads, if_neg (by decide), if_neg (by rw [Channel.inRun, hs]; decide), if_pos hs]
  · rename_i harmed hdelay hon hoff hhalting
    refine (ActsOn.refl s k).as ?_ (steadyOn_of_not_on hon).symm rfl
    have hrun : ¬ (s.ac[k].st = .armed ∨ s.ac[k].inRun = true) := by
      rw [ChannelEvents.channelInRun_iff]
      rintro (h | h | h | h) <;> contradiction
    rw [Channel.reads, if_neg (by decide), if_neg hrun, if_neg hhalting]

/-- Every channel reads its permit, all in the one state (R168, log 21). -/
theorem channelsFollow_acts {s p : State} (h : s.operating = true) :
    ActOn s (s.channelsFollow p) allChans
      (fun k => Channel.reads (s.chanCfg k) (p.chanPermit k) (s.windowOccupied k) s.ac[k])
      (fun k => !p.chanPermit k && s.steadyOn k) fun k => p.chanPermit k && decide (s.ac[k].st = .blocked) := by
  unfold State.channelsFollow
  rw [if_pos h]
  refine foldl_acts (fun t k hk => ?_) allChans (by decide)
  cases p.chanPermit k
  · have ha := permitLost_acts t k
    rw [State.steadyOn, hk.chanCfg, hk.channel, hk.occupied, ← State.steadyOn] at ha
    exact ha
  · have ha := permitReturns_acts t k (s.windowOccupied k)
    rw [hk.chanCfg, hk.channel] at ha
    exact ha

/-- What each state of a channel makes of its permit. -/
theorem reads_eq (c : ChanCfg) (permit occupied : Bool) (x : Channel) :
    (permit = true → x.st = .blocked → Channel.reads c permit occupied x = x.arms c false) ∧
    (permit = true → x.st ≠ .blocked → Channel.reads c permit occupied x = x) ∧
    (permit = false → x.st = .armed ∨ x.st = .delay ∨ x.st = .on ∨ x.st = .off →
      Channel.reads c permit occupied x = { x.stopsIn c .permit .blocked with blockedMark := occupied }) ∧
    (permit = false → x.st = .halting → Channel.reads c permit occupied x = { x with st := .idle, timer := none }) ∧
    (permit = false → x.st = .idle ∨ x.st = .blocked ∨ x.st = .held → Channel.reads c permit occupied x = x) := by
  unfold Channel.reads
  simp only [ChannelEvents.channelInRun_iff]
  refine ⟨fun hp hs => by rw [if_pos hp, if_pos hs], fun hp hs => by rw [if_pos hp, if_neg hs],
    fun hp hs => by rw [if_neg (Bool.eq_false_iff.1 hp), if_pos hs], fun hp hs => ?_, fun hp hs => ?_⟩
  · rw [if_neg (Bool.eq_false_iff.1 hp), if_neg (by rw [hs]; decide), if_pos hs]
  · rw [if_neg (Bool.eq_false_iff.1 hp), if_neg, if_neg] <;> obtain h | h | h := hs <;> rw [h] <;> decide

/-! ### Stopping (R76) -/

theorem stopChan_acts (s : State) (k : Chan) :
    ActsOn s (s.stopChan k) k (if s.ac[k].st = .idle then s.ac[k] else s.ac[k].stopsIn (s.chanCfg k) .stop .idle) (s.steadyOn k)
      false := by
  unfold State.stopChan
  split
  · rename_i hs
    exact (ActsOn.refl s k).as rfl (steadyOn_of_not_on (by rw [hs]; decide)).symm rfl
  · exact terminate_acts s k .stop .idle

theorem stopChans_acts (s : State) :
    ActOn s s.stopChans allChans
      (fun k => if s.ac[k].st = .idle then s.ac[k] else s.ac[k].stopsIn (s.chanCfg k) .stop .idle) s.steadyOn fun _ => false := by
  refine foldl_acts (fun t k hk => ?_) allChans (by decide)
  have ha := stopChan_acts t k
  rw [State.steadyOn, hk.chanCfg, hk.channel, ← State.steadyOn] at ha
  exact ha

theorem steadyOn_iff (s : State) (k : Chan) : s.steadyOn k = true ↔ s.ac[k].st = .on ∧ (s.chanCfg k).onTime = 0 := by
  simp [State.steadyOn, ChanCfg.steady]

/-! ### The evaluation of the table (R63, R71) -/

theorem evaluate_channel (s : State) (k : Chan) :
    s.evaluate.ac[k] = evaluatedAs (kept s) k ∧
      s.evaluate.tt.totals[pulsesTotal k] =
        if evaluationCounts (kept s) k = true then s.tt.totals[pulsesTotal k].incr else s.tt.totals[pulsesTotal k] := by
  obtain ⟨u, he, hw⟩ := evaluate_windows s
  rw [he]
  refine ⟨hw.channel k (mem_allChans k), ?_⟩
  have hp := hw.pulses k
  rw [kept_pulses] at hp
  simp only [mem_allChans, true_and] at hp
  exact hp

theorem opens_kept {s : State} {k : Chan} (h : (s.chanCfg k).mode ≠ .off) :
    opens (kept s) k = (!s.tt.windows[k].isOpen && s.evaluate.tt.windows[k].isOpen) := by
  rw [evaluate_window s h]
  rfl

theorem runEnds_kept {s : State} {k : Chan} (h : (s.chanCfg k).mode ≠ .off) :
    runEnds (kept s) k =
      (decide (s.ac[k].st = .delay ∨ s.ac[k].st = .on ∨ s.ac[k].st = .off) && decide (s.evaluate.tt.windows[k].count = 0)) := by
  rw [evaluate_window s h, show (decide (s.ac[k].st = .delay ∨ s.ac[k].st = .on ∨ s.ac[k].st = .off)) = s.ac[k].inRun from
    Bool.eq_iff_iff.2 (decide_eq_true_iff.trans (ChannelEvents.channelInRun_iff _).symm)]
  rfl

/-- An unserved board that stays in a closed window opens it (R52). -/
theorem opens_of_unserved {s : State} {k : Chan} {r : BoardRec} (hr : r ∈ s.tt.table) (hclosed : s.tt.windows[k].isOpen = false)
    (ho : occupies (s.chanCfg k) r = true) (hs : r.servedFor k = false)
    (hf : r.trail ≤ (s.cl.image.station.forgetPosition : Int)) (hl : r.lead < 8388607) : opens (kept s) k = true := by
  have hmem : s.markMissed r ∈ keptRecords s := by
    refine List.mem_filter.2 ⟨List.mem_map_of_mem hr, ?_⟩
    rw [not_passed, Bool.and_eq_true]
    exact ⟨decide_eq_true hf, decide_eq_true hl⟩
  have hun : (kept s).unservedPresent k = true := (unservedPresent_iff (kept s) k).2 ⟨_, hmem, ho, hs⟩
  have hw : (kept s).tt.windows[k].isOpen = false := hclosed
  rw [opens, openAfter, hw, hun]
  rfl

/-- Settles O29: the permits and the stop act on the channels one by one, and so do the windows of an evaluation. -/
theorem channelsFollow : Obligations.ChannelsFollow := by
  refine ⟨fun s p h => ?_, fun s p h => ?_, fun s k => ?_, fun s => ?_⟩
  · unfold State.channelsFollow
    rw [if_neg (Bool.eq_false_iff.1 h)]
  · intro t marks
    have ha := channelsFollow_acts (p := p) h
    have hmarks : (fun j => decide (j ∈ allChans) && (p.chanPermit j && decide (s.ac[j].st = .blocked))) = marks := by
      funext j
      rw [decide_eq_true (mem_allChans j), Bool.true_and]
    have heq := ha.eq
    rw [hmarks] at heq
    refine ⟨heq, ha.boards, fun k => ?_⟩
    intro c x
    refine ⟨(ha.self k (mem_allChans k)).trans ?_, (ha.pulses k).trans ?_⟩
    · obtain ⟨hblocked, hother, hrun, hhalting, hrest⟩ := reads_eq c (p.chanPermit k) (s.windowOccupied k) x
      show Channel.reads c (p.chanPermit k) (s.windowOccupied k) x = _
      cases hp : p.chanPermit k
      · rw [hp] at hrun hhalting hrest
        rw [if_neg (by decide)]
        cases hs : x.st with
        | armed => exact hrun rfl (.inl hs)
        | delay => exact hrun rfl (.inr (.inl hs))
        | on => exact hrun rfl (.inr (.inr (.inl hs)))
        | off => exact hrun rfl (.inr (.inr (.inr hs)))
        | halting => exact hhalting rfl hs
        | idle => exact hrest rfl (.inl hs)
        | blocked => exact hrest rfl (.inr (.inl hs))
        | held => exact hrest rfl (.inr (.inr hs))
      · rfl
    · simp only [mem_allChans, true_and, Bool.and_eq_true, Bool.not_eq_true', steadyOn_iff]
      rfl
  · intro t c x opens' ends
    obtain ⟨hac, htotal⟩ := evaluate_channel s k
    have hboard : c.mode = .board → opens (kept s) k = opens' ∧ runEnds (kept s) k = ends := fun hm =>
      have hoff : (s.chanCfg k).mode ≠ .off := by
        rw [show (s.chanCfg k).mode = .board from hm]
        decide
      ⟨opens_kept hoff, runEnds_kept hoff⟩
    have hself : t.ac[k] = if c.mode = .board ∧ x.st = .armed ∧ opens' = true then x.begins c
        else if c.mode = .board ∧ ends = true then (x.stopsIn c .window .idle).ends c false .window else x := by
      refine hac.trans ?_
      show (if c.mode = .board ∧ x.st = .armed ∧ opens (kept s) k = true then x.begins c
        else if c.mode = .board ∧ runEnds (kept s) k = true then (x.stopsIn c .window .idle).ends c false .window else x) = _
      by_cases hm : c.mode = .board
      · rw [(hboard hm).1, (hboard hm).2]
      · simp only [hm, false_and, if_false]
    refine ⟨hself, htotal.trans ?_, fun r hr hm harmed hclosed ho hs hf hl => ?_⟩
    · show (if (decide (c.mode = .board) && runEnds (kept s) k && (kept s).steadyOn k) = true then _ else _) = _
      by_cases hm : c.mode = .board
      · rw [(hboard hm).2]
        simp only [Bool.and_eq_true, decide_eq_true_eq, steadyOn_iff, and_assoc]
        rfl
      · simp only [hm, decide_false, Bool.false_and, Bool.false_eq_true, false_and, if_false]
    · rw [hself, ← (hboard hm).1, opens_of_unserved hr hclosed ho hs hf hl]
      exact if_pos ⟨hm, harmed, rfl⟩
  · have ha := stopChans_acts s
    have hac := setStopped_ac s
    have htotals : s.setStopped.tt.totals = s.stopChans.tt.totals := by rw [setStopped_eq]
    rw [htotals, hac]
    refine ⟨?_, ha.boards, fun k => ⟨ha.self k (mem_allChans k), (ha.pulses k).trans ?_⟩⟩
    · exact setStopped_eq s
    · simp only [mem_allChans, true_and, steadyOn_iff]
      rfl

end Sys2Proof.Proofs.ChannelReaders
end

section
/-! PROOF. The loops apart from their control periods: conversions, crossings, commands (R86 to R90, R101 to R103). -/

namespace Sys2Proof.Proofs.Loops

open Sys2Proof Sys2Proof.Machine Sys2Proof.Proofs.Step Sys2Proof.Proofs.Event

-- Proofs are elaborated in order: in the joined text the parallel ones would hold more threads at once than the memory limit allows.
set_option Elab.async false

/-! ### The two loops -/

theorem setLoop_first (s : State) (l : HeatLoop) : s.setLoop 0 l = { s with hl.loops := #v[l, s.hl.loops[(1 : LoopIx)]] } := by
  unfold State.setLoop
  rw [set_first]

theorem setLoop_second (s : State) (l : HeatLoop) : s.setLoop 1 l = { s with hl.loops := #v[s.hl.loops[(0 : LoopIx)], l] } := by
  unfold State.setLoop
  rw [set_second]

/-- The same state, its loops written out. -/
theorem loops_members (s : State) : { s with hl.loops := #v[s.hl.loops[(0 : LoopIx)], s.hl.loops[(1 : LoopIx)]] } = s := by
  rw [both_members]

theorem ganged_first (s : State) : s.ganged 0 = false := rfl

theorem ganged_second (s : State) : s.ganged 1 = s.cl.image.loops[(1 : LoopIx)].ganged := rfl

/-! ### Conversions (R86, R87) -/

theorem converted_open (l : HeatLoop) (offset : Int) :
    l.converted offset 5000 =
      { l with openCnt := min 3 (l.openCnt + 1), goodCnt := 0, tcOpen := l.tcOpen || decide (2 ≤ l.openCnt) } := by
  have hcnt : decide (3 ≤ l.openCnt + 1) = decide (2 ≤ l.openCnt) := decide_eq_decide.2 (by omega)
  unfold HeatLoop.converted
  rw [if_pos rfl, hcnt]

theorem converted_good (l : HeatLoop) (offset : Int) {raw : Nat} (h : raw ≠ 5000) :
    l.converted offset raw =
      { l with
        pv := min 5000 ((raw : Int) - offset).toNat
        goodCnt := min 3 (l.goodCnt + 1), openCnt := 0, tcOpen := l.tcOpen && decide (l.goodCnt < 2) } := by
  have hcnt : decide (l.goodCnt + 1 < 3) = decide (l.goodCnt < 2) := decide_eq_decide.2 (by omega)
  unfold HeatLoop.converted
  rw [if_neg h, hcnt]
  rfl

theorem converted_eq (l : HeatLoop) (offset : Int) (raw : Nat) :
    l.converted offset raw =
      if raw = 5000 then
        { l with openCnt := min 3 (l.openCnt + 1), goodCnt := 0, tcOpen := l.tcOpen || decide (2 ≤ l.openCnt) }
      else
        { l with
          pv := min 5000 ((raw : Int) - offset).toNat
          goodCnt := min 3 (l.goodCnt + 1), openCnt := 0, tcOpen := l.tcOpen && decide (l.goodCnt < 2) } := by
  split
  · rename_i h
    rw [h]
    exact converted_open l offset
  · rename_i h
    exact converted_good l offset h

theorem convertBoth_eq (s : State) (raw0 raw1 : Nat) :
    s.convertBoth raw0 raw1 =
      { s with
        hl.tcTimer := some 100
        hl.loops :=
          #v[s.hl.loops[(0 : LoopIx)].converted s.cl.image.loops[(0 : LoopIx)].tcOffset raw0,
            if s.cl.image.loops[(1 : LoopIx)].ganged then s.hl.loops[(1 : LoopIx)]
            else s.hl.loops[(1 : LoopIx)].converted s.cl.image.loops[(1 : LoopIx)].tcOffset raw1] } := by
  unfold State.convertBoth State.convert
  rw [if_neg (show ¬ s.ganged 0 = true by rw [ganged_first]; decide), setLoop_first]
  rw [ganged_second]
  split
  · rfl
  · rw [setLoop_second]
    rfl

/-- Settles O30. -/
theorem temperatureIsConverted : Obligations.TemperatureIsConverted := by
  intro s raw0 raw1 ha ht converted
  refine exec_of ((if_pos ⟨ha, ht⟩).trans ?_)
  rw [convertBoth_eq, converted_eq, converted_eq]

/-! ### Crossings (R88 to R90) -/

theorem expireOverdue_eq (s : State) : s.expireOverdue = if s.periodOver then finish s s.periodsExpire else s := by
  unfold State.expireOverdue onControlPeriodExpiry
  split <;> rfl

/-- A loop at a counted crossing (R88, R90). -/
def HeatLoop.crossed (u : State) (i : LoopIx) : HeatLoop :=
  if u.hl.mainsLost = true ∨ u.hl.begun = false then { u.hl.loops[i] with pos := 0, half := 0 }
  else if u.cl.image.loops[i].inUse = true ∧ u.ganged i = false then
    { u.hl.loops[i] with pos := min 100 (u.hl.loops[i].pos + 1) }
  else u.hl.loops[i]

/-- The position of a loop's own period, put to a value where it runs. -/
def HeatLoop.positioned (u : State) (f : Nat → Nat) (i : LoopIx) : HeatLoop :=
  if u.cl.image.loops[i].inUse = true ∧ u.ganged i = false then { u.hl.loops[i] with pos := f u.hl.loops[i].pos }
  else u.hl.loops[i]

theorem positioned_pos {u : State} {i : LoopIx} (h : u.cl.image.loops[i].inUse = true ∧ u.ganged i = false) (f : Nat → Nat) :
    HeatLoop.positioned u f i = { u.hl.loops[i] with pos := f u.hl.loops[i].pos } := if_pos h

theorem putPosition_cond (u : State) (i : LoopIx) :
    ((u.loopCfg i).inUse && !u.ganged i) = true ↔ u.cl.image.loops[i].inUse = true ∧ u.ganged i = false := by
  rw [Bool.and_eq_true, Bool.not_eq_true']
  rfl

theorem putPosition_first (u : State) (f : Nat → Nat) :
    u.putPosition f 0 = { u with hl.loops := #v[HeatLoop.positioned u f 0, u.hl.loops[(1 : LoopIx)]] } := by
  unfold State.putPosition HeatLoop.positioned
  by_cases h : u.cl.image.loops[(0 : LoopIx)].inUse = true ∧ u.ganged 0 = false
  · rw [if_pos ((putPosition_cond u 0).2 h), if_pos h, setLoop_first]
  · rw [if_neg (mt (putPosition_cond u 0).1 h), if_neg h, loops_members]

theorem putPosition_second (u : State) (f : Nat → Nat) :
    u.putPosition f 1 = { u with hl.loops := #v[u.hl.loops[(0 : LoopIx)], HeatLoop.positioned u f 1] } := by
  unfold State.putPosition HeatLoop.positioned
  by_cases h : u.cl.image.loops[(1 : LoopIx)].inUse = true ∧ u.ganged 1 = false
  · rw [if_pos ((putPosition_cond u 1).2 h), if_pos h, setLoop_second]
  · rw [if_neg (mt (putPosition_cond u 1).1 h), if_neg h, loops_members]

theorem putPositions_eq (u : State) (f : Nat → Nat) :
    u.putPositions f = { u with hl.loops := #v[HeatLoop.positioned u f 0, HeatLoop.positioned u f 1] } := by
  unfold State.putPositions
  rw [putPosition_first, putPosition_second]
  rfl

theorem countCrossing_eq (u : State) :
    u.countCrossing =
      { u with
        hl.zcTimer := some 50, hl.lastCrossing := some u.now.ms, hl.mainsLost := false, hl.begun := true
        hl.loops := #v[HeatLoop.crossed u 0, HeatLoop.crossed u 1] } := by
  unfold State.countCrossing HeatLoop.crossed
  by_cases h : u.hl.mainsLost = true ∨ u.hl.begun = false
  · simp only [if_pos h]
    rfl
  · have hrun : { u with hl.mainsLost := false, hl.begun := true } = u := by
      obtain ⟨hm, hb⟩ := not_or.1 h
      rw [← Bool.eq_false_iff.2 hm, ← Bool.of_not_eq_false hb]
    simp only [if_neg h]
    refine (putPositions_eq _ _).trans ?_
    exact congrArg (fun v : State => { v with
      hl.zcTimer := some 50, hl.lastCrossing := some u.now.ms
      hl.loops := #v[HeatLoop.positioned u (fun p => min 100 (p + 1)) 0, HeatLoop.positioned u (fun p => min 100 (p + 1)) 1] })
      hrun.symm

theorem isNoise_iff (s : State) (sinceLast : Nat) :
    s.isNoise sinceLast = true ↔ s.hl.lastCrossing.isSome = true ∧ sinceLast < 4000 := by
  rw [State.isNoise, Bool.and_eq_true, decide_eq_true_eq]

theorem not_isNoise {s : State} {sinceLast : Nat} (h : s.hl.lastCrossing = none ∨ 4000 ≤ sinceLast) :
    s.isNoise sinceLast = false := by
  rw [Bool.eq_false_iff, Ne, isNoise_iff]
  rintro ⟨hs, hl⟩
  obtain h | h := h
  · rw [h] at hs
    exact absurd hs (by decide)
  · omega

/-- An event that is not ended by a reset ends with the readers at rest. -/
theorem finish_of_active {s t : State} (h : (finish s t).active = true) : ∃ r, ByReaders t r ∧ finish s t = r.momentEnds := by
  unfold finish at h ⊢
  dsimp only at h ⊢
  have hr : ByReaders t (if readable s = readable t then t else settle 32 t) := by
    split
    · exact .refl t
    · exact settle_within 32 t
  generalize (if readable s = readable t then t else settle 32 t) = r at h hr ⊢
  split at h
  · exact absurd ((restart_inactive r).symm.trans h) (by decide)
  · rename_i hd
    exact ⟨r, hr, by rw [if_neg hd]⟩

/-- An overdue expiry of the control periods leaves mains timing as it was. -/
theorem overdue_crossings {s : State} (h : s.expireOverdue.active = true) :
    s.expireOverdue.hl.lastCrossing = s.hl.lastCrossing ∧ s.expireOverdue.hl.zcTimer = s.hl.zcTimer := by
  rw [expireOverdue_eq] at h ⊢
  split at h
  · rename_i ho
    rw [if_pos ho]
    obtain ⟨r, hr, he⟩ := finish_of_active h
    have hsample := (sample_within (expired s) s.loopUpdates).same
    have hperiods := expired_byPeriods s
    rw [ByPeriods] at hperiods
    rw [ByReaders] at hr
    rw [he, momentEnds_hl, hr, periodsExpire_eq]
    dsimp only
    rw [hsample.2.2.1, hperiods]
    exact ⟨rfl, rfl⟩
  · rename_i ho
    rw [if_neg ho]
    exact ⟨rfl, rfl⟩

/-- Settles O31: a crossing that counts, or the loss of mains, finds the overdue expiry made. -/
theorem crossingsAreCounted : Obligations.CrossingsAreCounted := by
  intro s ha u
  have hu : s.expireOverdue = u := expireOverdue_eq s
  refine ⟨fun n hs hn => ?_, fun n hn => ⟨fun hact => ?_, fun hact => ?_⟩, fun hz => ⟨fun hact => ?_, fun hact => ?_⟩⟩
  · have hnoise := (isNoise_iff s n).2 ⟨hs, hn⟩
    refine exec_of (if_neg ?_) (if_pos hnoise)
    rintro ⟨-, h⟩
    rw [hnoise] at h
    exact absurd h (by decide)
  · have hprior : prior (.zeroCrossing n) s = u := (if_neg (Bool.eq_false_iff.1 (not_isNoise hn))).trans hu
    obtain ⟨hlast, -⟩ := overdue_crossings (s := s) (hu ▸ hact)
    rw [hu] at hlast
    rw [exec_effect, hprior]
    refine congrArg (fun t => Host.Outcome.next (finish u t)) ?_
    exact (if_pos ⟨hact, not_isNoise (by rw [hlast]; exact hn)⟩).trans (countCrossing_eq u)
  · have hprior : prior (.zeroCrossing n) s = u := (if_neg (Bool.eq_false_iff.1 (not_isNoise hn))).trans hu
    rw [exec_effect, hprior]
    refine congrArg (fun t => Host.Outcome.next (finish u t)) (if_neg ?_)
    rintro ⟨h, -⟩
    exact absurd (hact.symm.trans h) (by decide)
  · have hprior : prior .mainsLost s = u := (if_pos hz).trans hu
    obtain ⟨-, hzc⟩ := overdue_crossings (s := s) (hu ▸ hact)
    rw [hu] at hzc
    rw [exec_effect, hprior]
    refine congrArg (fun t => Host.Outcome.next (finish u t)) ?_
    exact if_pos ⟨hact, by rw [hzc]; exact hz⟩
  · have hprior : prior .mainsLost s = u := (if_pos hz).trans hu
    rw [exec_effect, hprior]
    refine congrArg (fun t => Host.Outcome.next (finish u t)) (if_neg ?_)
    rintro ⟨h, -⟩
    exact absurd (hact.symm.trans h) (by decide)

/-! ### Setpoints (R101) -/

theorem answerLoopSetpoint_of_loop (i : LoopIx) (value : BitVec 16) (s : State) :
    answerLoopSetpoint (BitVec.ofNat 8 i.val) value s = setLoopPoint i value.toNat s := by
  match i with
  | 0 => rfl
  | 1 => rfl

theorem ganged_iff (s : State) (i : LoopIx) : s.ganged i = true ↔ i = 1 ∧ s.cl.image.loops[i].ganged = true := by
  rw [State.ganged, Bool.and_eq_true, decide_eq_true_eq]
  constructor <;> (rintro ⟨rfl, h⟩; exact ⟨rfl, h⟩)

theorem setLoopPoint_of_ganged {s : State} {i : LoopIx} (h : s.ganged i = true) (value : Nat) :
    setLoopPoint i value s = refuse s .badOperand := if_pos h

theorem setLoopPoint_of_unused {s : State} {i : LoopIx} (hg : ¬ s.ganged i = true) (h : s.cl.image.loops[i].inUse = false)
    (value : Nat) : setLoopPoint i value s = refuse s .refusedState := by
  refine (if_neg hg).trans (if_pos ?_)
  rw [show (s.loopCfg i).inUse = false from h]
  rfl

/-- The setpoint that a value gives a loop in use, and whether it was clamped. -/
theorem setLoopPoint_of_used {s : State} {i : LoopIx} (hg : ¬ s.ganged i = true) (h : s.cl.image.loops[i].inUse = true)
    {value sp : Nat} {clamped : Bool} (hsp : setpointOf (s.loopCfg i) value = sp)
    (hc : outsideRange (s.loopCfg i) value = clamped) :
    setLoopPoint i value s =
      { state := { s with hl.loops := s.hl.loops.set i { s.hl.loops[i] with sp := sp } }
        result := if clamped then .clamped else .done
        data := [BitVec.ofNat 8 (sp / 256), BitVec.ofNat 8 sp] } := by
  refine (if_neg hg).trans ((if_neg ?_).trans ?_)
  · rw [show (s.loopCfg i).inUse = true from h]
    decide
  · rw [hsp, hc, bytes16_ofNat]
    rfl

/-- Settles O33. -/
theorem loopSetpointSets : Obligations.LoopSetpointSets := by
  intro s h value hc
  refine ⟨fun loop hl => exec_of_refusal hc (act := answerLoopSetpoint loop value) rfl (if_neg (by omega)), fun i => ?_⟩
  intro c answered
  have hof := answerLoopSetpoint_of_loop i value s.acked
  have hg : s.acked.ganged i = true ↔ i = 1 ∧ c.ganged = true := ganged_iff s.acked i
  refine ⟨fun hgang => exec_of_refusal hc rfl (hof.trans (setLoopPoint_of_ganged (hg.2 hgang) _)),
    fun hn hu => exec_of_refusal hc rfl (hof.trans (setLoopPoint_of_unused (mt hg.1 hn) hu _)),
    fun hn hu hmm => ⟨fun hv => ?_, fun hv => ?_, fun h1 h2 => ?_⟩⟩
  · refine exec_of_answer hc rfl (hof.trans (setLoopPoint_of_used (mt hg.1 hn) hu (if_pos hv) (clamped := true) ?_)) (.inr (.inl rfl))
    exact Bool.or_eq_true_iff.2 (.inl (decide_eq_true hv))
  · refine exec_of_answer hc rfl (hof.trans (setLoopPoint_of_used (mt hg.1 hn) hu ((if_neg ?_).trans (if_pos hv))
      (clamped := true) ?_))
      (.inr (.inl rfl))
    · exact fun hlt => absurd (Nat.lt_of_lt_of_le hlt (Nat.le_trans hmm (Nat.le_of_lt hv))) (Nat.lt_irrefl _)
    · exact Bool.or_eq_true_iff.2 (.inr (decide_eq_true hv))
  · refine exec_of_answer hc rfl (hof.trans (setLoopPoint_of_used (mt hg.1 hn) hu
      ((if_neg (Nat.not_lt.2 h1)).trans (if_neg (Nat.not_lt.2 h2))) (clamped := false) ?_)) (.inl rfl)
    exact Bool.or_eq_false_iff.2 ⟨decide_eq_false (Nat.not_lt.2 h1), decide_eq_false (Nat.not_lt.2 h2)⟩

/-! ### Commands on a set of loops (R102, R103) -/

/-- The result of LOOP-ENABLE and LOOP-DISABLE on a loop. -/
def loopResult (s : State) (i : LoopIx) : ResultCode := if s.cl.image.loops[i].inUse then .done else .refusedState

theorem enableLoop_eq (s : State) (i : LoopIx) :
    enableLoop s i =
      (s.setLoop i (if s.cl.image.loops[i].inUse then { s.hl.loops[i] with enabled := true } else s.hl.loops[i]), loopResult s i) := by
  unfold enableLoop loopResult State.loopCfg
  split
  · rfl
  · simp [State.setLoop]

theorem disableLoop_eq (s : State) (i : LoopIx) :
    disableLoop s i =
      (s.setLoop i (if s.cl.image.loops[i].inUse && s.hl.loops[i].enabled then
          { s.hl.loops[i] with
            enabled := false, integ := 0, half := 0, carry := 0, c := false, v := false, l := false, clamp := .unclamped }
        else s.hl.loops[i]), loopResult s i) := by
  unfold disableLoop loopResult State.loopCfg
  cases s.cl.image.loops[i].inUse
  · simp [State.setLoop]
  · cases s.hl.loops[i].enabled
    · simp [State.setLoop]
    · rfl

theorem onLoops_outOfRange {set : BitVec 8} (h : set &&& 0xfc#8 ≠ 0) (act : State → LoopIx → State × ResultCode) (s : State) :
    onLoops set act s = refuse s .badOperand := by
  unfold onLoops loopSetOutOfRange
  exact if_pos (decide_eq_true h)

theorem loopsOf_eq (set : BitVec 8) :
    loopsOf set = (if set.getLsbD 0 then [0] else []) ++ if set.getLsbD 1 then [1] else [] := by
  unfold loopsOf
  rw [List.filter_cons, List.filter_cons, List.filter_nil]
  show (if set.getLsbD 0 = true then (0 : LoopIx) :: (if set.getLsbD 1 = true then [1] else []) else
    if set.getLsbD 1 = true then [1] else []) = _
  split <;> rfl

/-- The result of a command on a set of loops: the loops named are all in use, or one is not. -/
theorem loopResults (named0 named1 used0 used1 : Bool) :
    (if named1 then worse (if named0 then worse .done (if used0 then .done else .refusedState) else .done)
        (if used1 then .done else .refusedState)
      else if named0 then worse .done (if used0 then .done else .refusedState) else .done) =
      if (named0 = true ∧ used0 = false) ∨ (named1 = true ∧ used1 = false) then ResultCode.refusedState else .done := by
  revert named0 named1 used0 used1
  decide

section
variable {act : State → LoopIx → State × ResultCode} {f : LoopCfg → HeatLoop → HeatLoop}
  (hact : ∀ t i, act t i = (t.setLoop i (f t.cl.image.loops[i] t.hl.loops[i]), loopResult t i))
include hact

theorem foldl_first (named : Bool) (s : State) (r : ResultCode) :
    (if named then [(0 : LoopIx)] else []).foldl (fun x i => ((act x.1 i).1, worse x.2 (act x.1 i).2)) (s, r) =
      ({ s with hl.loops :=
          #v[if named then f s.cl.image.loops[(0 : LoopIx)] s.hl.loops[(0 : LoopIx)] else s.hl.loops[(0 : LoopIx)],
            s.hl.loops[(1 : LoopIx)]] }, if named then worse r (loopResult s 0) else r) := by
  cases named
  · exact congrArg (·, r) (loops_members s).symm
  · simp only [if_true, List.foldl_cons, List.foldl_nil, hact, setLoop_first]

theorem foldl_second (named : Bool) (s : State) (r : ResultCode) :
    (if named then [(1 : LoopIx)] else []).foldl (fun x i => ((act x.1 i).1, worse x.2 (act x.1 i).2)) (s, r) =
      ({ s with hl.loops :=
          #v[s.hl.loops[(0 : LoopIx)],
            if named then f s.cl.image.loops[(1 : LoopIx)] s.hl.loops[(1 : LoopIx)] else s.hl.loops[(1 : LoopIx)]] },
        if named then worse r (loopResult s 1) else r) := by
  cases named
  · exact congrArg (·, r) (loops_members s).symm
  · simp only [if_true, List.foldl_cons, List.foldl_nil, hact, setLoop_second]

/-- A command on a set of loops acts on each by itself: `f` says what it makes of a loop, from the image and the loop. -/
theorem onLoops_eq {set : BitVec 8} (h : set &&& 0xfc#8 = 0) (s : State) :
    onLoops set act s =
      { state := { s with hl.loops :=
          #v[if set.getLsbD 0 then f s.cl.image.loops[(0 : LoopIx)] s.hl.loops[(0 : LoopIx)] else s.hl.loops[(0 : LoopIx)],
            if set.getLsbD 1 then f s.cl.image.loops[(1 : LoopIx)] s.hl.loops[(1 : LoopIx)] else s.hl.loops[(1 : LoopIx)]] }
        result :=
          if (set.getLsbD 0 = true ∧ s.cl.image.loops[(0 : LoopIx)].inUse = false) ∨
              (set.getLsbD 1 = true ∧ s.cl.image.loops[(1 : LoopIx)].inUse = false) then .refusedState else .done
        data := [] } := by
  have hn : loopSetOutOfRange set = false := decide_eq_false (not_not.2 h)
  unfold onLoops
  rw [hn, loopsOf_eq, List.foldl_append, foldl_first hact, foldl_second hact]
  rw [if_neg (by decide), ← loopResults]
  rfl

end

/-- A loop after LOOP-ENABLE (R102). -/
def HeatLoop.afterEnable (c : LoopCfg) (l : HeatLoop) : HeatLoop := if c.inUse then { l with enabled := true } else l

/-- A loop after LOOP-DISABLE (R98, R103). -/
def HeatLoop.afterDisable (c : LoopCfg) (l : HeatLoop) : HeatLoop :=
  if c.inUse && l.enabled then
    { l with
      enabled := false, integ := 0, half := 0, carry := 0, c := false, v := false, l := false, clamp := .unclamped }
  else l

theorem if_and (a b : Bool) {α : Type} (x y : α) : (if a then (if b then x else y) else y) = if a && b then x else y := by
  cases a <;> rfl

/-- Settles O34. -/
theorem loopsAreSwitched : Obligations.LoopsAreSwitched := by
  refine ⟨fun s h set hc => ?_, fun s i => ?_⟩
  · intro named r enabled disabled
    have hr : r = if (set.getLsbD 0 = true ∧ s.cl.image.loops[(0 : LoopIx)].inUse = false) ∨
        (set.getLsbD 1 = true ∧ s.cl.image.loops[(1 : LoopIx)].inUse = false) then .refusedState else .done :=
      ite_congr (propext Fin.exists_fin_two) (fun _ => rfl) fun _ => rfl
    have henabled : ∀ i : LoopIx, (if set.getLsbD i.val then HeatLoop.afterEnable s.cl.image.loops[i] s.hl.loops[i]
        else s.hl.loops[i]) = enabled i := fun i => if_and _ _ _ _
    have hdisabled : ∀ i : LoopIx, (if set.getLsbD i.val then HeatLoop.afterDisable s.cl.image.loops[i] s.hl.loops[i]
        else s.hl.loops[i]) = disabled i := fun i => by
      rw [HeatLoop.afterDisable, if_and, ← Bool.and_assoc]
    refine ⟨fun ho => ⟨exec_of_refusal hc (act := answerLoopEnable set) rfl (onLoops_outOfRange ho _ _),
        exec_of_refusal hc (act := answerLoopDisable set) rfl (onLoops_outOfRange ho _ _)⟩,
      fun hs => ⟨exec_of_answer hc (act := answerLoopEnable set) rfl ?_ (.inr (.inr rfl)),
        exec_of_answer hc (act := answerLoopDisable set) rfl ?_ (.inr (.inr rfl))⟩⟩
    · rw [← henabled 0, ← henabled 1, hr]
      exact onLoops_eq (act := enableLoop) (f := HeatLoop.afterEnable) enableLoop_eq hs s.acked
    · rw [← hdisabled 0, ← hdisabled 1, hr]
      exact onLoops_eq (act := disableLoop) (f := HeatLoop.afterDisable) disableLoop_eq hs s.acked
  · unfold State.loopFollows
    by_cases hf : s.loopRuns i = true ∧ s.forcedOff i = true
    · rw [if_pos (Bool.and_eq_true_iff.2 hf), if_pos hf]
      exact setLoop_self s i _
    · rw [if_neg (mt Bool.and_eq_true_iff.1 hf), if_neg hf]

end Sys2Proof.Proofs.Loops
end

section
/-! PROOF. The expiry of the control periods: each loop's computation, its demand and its share (R90 to R100, R112). -/

namespace Sys2Proof.Proofs.ControlPeriod

open Sys2Proof Sys2Proof.Machine Sys2Proof.Proofs.Step Sys2Proof.Proofs.Event Sys2Proof.Proofs.Loops

-- Proofs are elaborated in order: in the joined text the parallel ones would hold more threads at once than the memory limit allows.
set_option Elab.async false

/-! ### When they expire -/

theorem periodOver_iff (s : State) :
    s.periodOver = true ↔
      (s.active = true ∧ s.hl.mainsLost = false ∧ s.hl.begun = true ∧ ∃ i : LoopIx, s.cl.image.loops[i].inUse = true) ∧
        ∃ i : LoopIx, 100 ≤ s.hl.loops[i].pos := by
  have hsome : s.someLoop = true ↔ ∃ i : LoopIx, s.cl.image.loops[i].inUse = true :=
    Bool.or_eq_true_iff.trans (Fin.exists_fin_two (p := fun i => s.cl.image.loops[i].inUse = true)).symm
  have hpos : (decide (100 ≤ s.hl.loops[(0 : LoopIx)].pos) || decide (100 ≤ s.hl.loops[(1 : LoopIx)].pos)) = true ↔
      ∃ i : LoopIx, 100 ≤ s.hl.loops[i].pos := by
    rw [Bool.or_eq_true, decide_eq_true_eq, decide_eq_true_eq]
    exact (Fin.exists_fin_two (p := fun i => 100 ≤ s.hl.loops[i].pos)).symm
  unfold State.periodOver State.periodsRun
  rw [Bool.and_eq_true, hpos, Bool.and_eq_true, Bool.and_eq_true, Bool.and_eq_true, hsome, Bool.not_eq_true']
  simp only [and_assoc]

/-! ### One loop -/

/-- A loop under its share, its output u formed (R95 to R97). -/
def HeatLoop.sharedAs (s : State) (i : LoopIx) (l : HeatLoop) : HeatLoop :=
  (({ l with lastD := demandOf (s.loopCfg i).rated l.u } : HeatLoop).granted (s.loopCfg i) (s.ownEntry i)
    (grantOf s.cl.image.station (basisOf s) i (demandOf (s.loopCfg i).rated l.u))).quantised

/-- A loop after the reduced computation, its demand 0 announced (R98). -/
def HeatLoop.reducedAs (l : HeatLoop) (n z : Bool) : HeatLoop := { l.reduced n z with lastD := 0 }

/-- A loop after its own expiry (R91 to R98). -/
def HeatLoop.expiredAs (s : State) (off : Bool) (i : LoopIx) (l : HeatLoop) : HeatLoop :=
  if off then HeatLoop.reducedAs l (decide (l.error < 0)) (withinDeadband (s.loopCfg i).deadband l.error)
  else HeatLoop.sharedAs s i (l.computed (s.loopCfg i) s.tt.due[i])

/-- A ganged HL1 after the expiry of HL0, which left `m` (R100). -/
def HeatLoop.followedAs (s : State) (off : Bool) (m l : HeatLoop) : HeatLoop :=
  if off then HeatLoop.reducedAs l m.n m.z
  else HeatLoop.sharedAs s 1 { l with u := m.u, n := m.n, z := m.z, c := m.c, v := m.v }

theorem sharedAs_lastD (s : State) (i : LoopIx) (l : HeatLoop) :
    (HeatLoop.sharedAs s i l).lastD = demandOf (s.loopCfg i).rated l.u := by
  unfold HeatLoop.sharedAs HeatLoop.granted
  split <;> rfl

/-! ### Both loops -/

/-- The state within an expiry that began in `s`: `u` has queued the demands announced so far, the loops are `l` and `m`. -/
def within (s u : State) (l m : HeatLoop) : State :=
  { u with hl := { s.hl with loops := #v[l, m] }, bu := { s.bu with basis := some (basisOf s) } }

theorem within_enqueue (s u : State) (l m : HeatLoop) (f : Frame) : (within s u l m).enqueue f = within s (u.enqueue f) l m :=
  enqueue_heat u f _ _

theorem within_first (s u : State) (l m x : HeatLoop) : (within s u l m).setLoop 0 x = within s u x m := by
  rw [setLoop_first]
  rfl

theorem within_second (s u : State) (l m x : HeatLoop) : (within s u l m).setLoop 1 x = within s u l x := by
  rw [setLoop_second]
  rfl

/-- What the expiry of a loop reads is as it was at the start of the event, but for the loops. -/
theorem within_reads {s u : State} (h : ByQueue s u) (l m : HeatLoop) (i : LoopIx) :
    (within s u l m).loopCfg i = s.loopCfg i ∧ (within s u l m).ownEntry i = s.ownEntry i ∧
      (within s u l m).cl.image = s.cl.image ∧ (within s u l m).tt = s.tt ∧
      (∀ d, demandFrame (within s u l m) i d = demandFrame s i d) ∧ (within s u l m).ganged i = s.ganged i := by
  rw [ByQueue] at h
  rw [h]
  exact ⟨rfl, rfl, rfl, rfl, fun _ => rfl, rfl⟩

section
variable {s u : State} (h : ByQueue s u) (l m : HeatLoop) (off : Bool)
include h

/-- An announcement of a loop that has been formed. -/
theorem within_announce (i : LoopIx) (x : HeatLoop) (d : Nat) :
    ((within s u l m).setLoop i x).announceDemand i d =
      (within s (u.enqueue (demandFrame s i d)) l m).setLoop i { x with lastD := d } := by
  obtain ⟨-, -, -, -, hframe, -⟩ := within_reads h l m i
  rw [announceDemand_eq, hframe, within_enqueue]

/-- A share of a loop whose output is formed. -/
theorem within_share (i : LoopIx) (x : HeatLoop) :
    ((within s u l m).setLoop i x).share (basisOf s) i =
      (within s (u.enqueue (demandFrame s i (HeatLoop.sharedAs s i x).lastD)) l m).setLoop i (HeatLoop.sharedAs s i x) := by
  obtain ⟨hcfg, hentry, himage, -, hframe, -⟩ := within_reads h l m i
  rw [share_eq, hcfg, hentry, himage, hframe, within_enqueue, sharedAs_lastD]
  rfl

theorem within_expire_first :
    (within s u l m).expire (basisOf s) off 0 =
      within s (u.enqueue (demandFrame s 0 (HeatLoop.expiredAs s off 0 l).lastD)) (HeatLoop.expiredAs s off 0 l) m := by
  obtain ⟨hcfg, -, -, htt, -, -⟩ := within_reads h l m 0
  have hl : (within s u l m).hl.loops[(0 : LoopIx)] = l := rfl
  unfold State.expire HeatLoop.expiredAs
  simp only [hcfg, htt, hl]
  split
  · rw [within_announce h, within_first]
    rfl
  · rw [within_share h, within_first]

theorem within_expire_second :
    (within s u l m).expire (basisOf s) off 1 =
      within s (u.enqueue (demandFrame s 1 (HeatLoop.expiredAs s off 1 m).lastD)) l (HeatLoop.expiredAs s off 1 m) := by
  obtain ⟨hcfg, -, -, htt, -, -⟩ := within_reads h l m 1
  have hm : (within s u l m).hl.loops[(1 : LoopIx)] = m := rfl
  unfold State.expire HeatLoop.expiredAs
  simp only [hcfg, htt, hm]
  split
  · rw [within_announce h, within_second]
    rfl
  · rw [within_share h, within_second]

theorem within_expireGanged :
    (within s u l m).expireGanged (basisOf s) off =
      within s (u.enqueue (demandFrame s 1 (HeatLoop.followedAs s off l m).lastD)) l (HeatLoop.followedAs s off l m) := by
  have hl : (within s u l m).hl.loops[(0 : LoopIx)] = l := rfl
  have hm : (within s u l m).hl.loops[(1 : LoopIx)] = m := rfl
  unfold State.expireGanged HeatLoop.followedAs
  simp only [hl, hm]
  split
  · rw [within_announce h, within_second]
    rfl
  · rw [within_share h, within_second]

/-- HL0's part in the expiry. -/
theorem within_expireLoop_first :
    (within s u l m).expireLoop (basisOf s) off 0 =
      if (s.loopCfg 0).inUse then
        within s (u.enqueue (demandFrame s 0 (HeatLoop.expiredAs s off 0 l).lastD)) (HeatLoop.expiredAs s off 0 l) m
      else within s u l m := by
  obtain ⟨hcfg, -, -, -, -, -⟩ := within_reads h l m 0
  unfold State.expireLoop
  rw [hcfg, if_neg (show ¬ (within s u l m).ganged 0 = true from Bool.false_ne_true), within_expire_first h]

/-- HL1's part in the expiry, by itself or after HL0. -/
theorem within_expireLoop_second :
    (within s u l m).expireLoop (basisOf s) off 1 =
      if (s.loopCfg 1).inUse then
        if (s.loopCfg 1).ganged then
          within s (u.enqueue (demandFrame s 1 (HeatLoop.followedAs s off l m).lastD)) l (HeatLoop.followedAs s off l m)
        else within s (u.enqueue (demandFrame s 1 (HeatLoop.expiredAs s off 1 m).lastD)) l (HeatLoop.expiredAs s off 1 m)
      else within s u l m := by
  obtain ⟨hcfg, -, -, -, -, hganged⟩ := within_reads h l m 1
  unfold State.expireLoop
  rw [hcfg, hganged, within_expireGanged h, within_expire_second h]
  rfl

end

/-- HL0 after the expiry. -/
def firstAfter (s : State) : HeatLoop :=
  if (s.loopCfg 0).inUse then HeatLoop.expiredAs s (s.forcedOff 0) 0 s.hl.loops[(0 : LoopIx)] else s.hl.loops[(0 : LoopIx)]

/-- HL1 after the expiry. -/
def secondAfter (s : State) : HeatLoop :=
  if (s.loopCfg 1).inUse then
    if (s.loopCfg 1).ganged then HeatLoop.followedAs s (s.forcedOff 1) (firstAfter s) s.hl.loops[(1 : LoopIx)]
    else HeatLoop.expiredAs s (s.forcedOff 1) 1 s.hl.loops[(1 : LoopIx)]
  else s.hl.loops[(1 : LoopIx)]

/-- The demand of a loop in use is announced (R95). -/
def announced (s : State) (i : LoopIx) (l : HeatLoop) (u : State) : State :=
  if (s.loopCfg i).inUse then u.enqueue (demandFrame s i l.lastD) else u

theorem announced_within (s : State) (i : LoopIx) (l : HeatLoop) {u : State} (h : ByQueue s u) : ByQueue s (announced s i l u) := by
  unfold announced
  split
  · exact h.trans (enqueue_within u _)
  · exact h

/-- Both loops after the expiry, before the periods that follow begin. -/
theorem expireBoth_eq (s : State) :
    (({ s with bu.basis := some (basisOf s) } : State).expireLoop (basisOf s) (s.forcedOff 0) 0).expireLoop (basisOf s)
        (s.forcedOff 1) 1 =
      within s (announced s 1 (secondAfter s) (announced s 0 (firstAfter s) s)) (firstAfter s) (secondAfter s) := by
  have hstart : ({ s with bu.basis := some (basisOf s) } : State) = within s s s.hl.loops[(0 : LoopIx)] s.hl.loops[(1 : LoopIx)] := by
    unfold within
    rw [both_members]
  have hfirst : (within s s s.hl.loops[(0 : LoopIx)] s.hl.loops[(1 : LoopIx)]).expireLoop (basisOf s) (s.forcedOff 0) 0 =
      within s (announced s 0 (firstAfter s) s) (firstAfter s) s.hl.loops[(1 : LoopIx)] := by
    rw [within_expireLoop_first (.refl s)]
    unfold announced firstAfter
    split <;> rfl
  rw [hstart, hfirst, within_expireLoop_second (announced_within s 0 _ (.refl s))]
  generalize announced s 0 (firstAfter s) s = u
  unfold announced secondAfter
  split
  · split <;> rfl
  · rfl

/-! ### The arithmetic of the computation (R91 to R97) -/

theorem clampNat_eq (hi : Nat) (x : Int) : clampNat hi x = (max 0 (min (hi : Int) x)).toNat := by
  unfold clampNat
  omega

theorem integralHeld_eq (l : HeatLoop) (e : Int) :
    l.integralHeld e = decide ((0 < e ∧ (l.clamp = .high ∨ l.l = true)) ∨ (e < 0 ∧ l.clamp = .low)) := by
  simp only [HeatLoop.integralHeld, Bool.decide_or, Bool.decide_and, Bool.decide_eq_true]

theorem clampOf_ne (raw : Int) : decide (clampOf raw ≠ .unclamped) = decide (raw < 0 ∨ 1000 < raw) := by
  unfold clampOf
  by_cases hlow : raw < 0
  · rw [if_pos hlow]
    simp [hlow]
  · rw [if_neg hlow]
    by_cases hhigh : 1000 < raw
    · rw [if_pos hhigh]
      simp [hhigh]
    · rw [if_neg hhigh]
      simp [hlow, hhigh]

theorem sharedAs_eq (s : State) (i : LoopIx) (l : HeatLoop) {d g out : Nat} {isFull : Bool}
    (hd : l.u * s.cl.image.loops[i].rated / 1000 = d) (hg : grantOf s.cl.image.station (basisOf s) i d = g)
    (hf : fullGrant (s.ownEntry i) g = isFull)
    (ho : (if isFull then l.u else min l.u (g * 1000 / s.cl.image.loops[i].rated)) = out) :
    HeatLoop.sharedAs s i l =
      { l with lastD := d, uOut := out, l := !isFull, half := (out + l.carry) / 10, carry := (out + l.carry) % 10 } := by
  have hd' : demandOf (s.loopCfg i).rated l.u = d := hd
  unfold HeatLoop.sharedAs HeatLoop.granted
  rw [hd', hg, hf]
  cases isFull
  · rw [← ho]
    rfl
  · rw [← ho]
    rfl

theorem computed_eq (l : HeatLoop) (c : LoopCfg) (due : Nat) {e sum raw : Int} {held : Bool} {integ : Nat}
    (he : (l.sp : Int) - l.pv = e)
    (hheld : decide ((0 < e ∧ (l.clamp = .high ∨ l.l = true)) ∨ (e < 0 ∧ l.clamp = .low)) = held)
    (hsum : (if held then (l.integ : Int) else l.integ + c.ki * e) = sum)
    (hinteg : (max 0 (min 100000 sum)).toNat = integ)
    (hraw : Int.tdiv (c.kp * e) 10 + (integ / 100 : Nat) + (c.fBoard * due : Nat) = raw) :
    l.computed c due =
      { l with
        integ := integ, v := !held && decide (sum < 0 ∨ 100000 < sum), u := (max 0 (min 1000 raw)).toNat
        clamp := if raw < 0 then .low else if 1000 < raw then .high else .unclamped
        c := decide (raw < 0 ∨ 1000 < raw), n := decide (e < 0), z := decide (e.natAbs ≤ c.deadband) } := by
  have hE : l.error = e := he
  have hH : l.integralHeld e = held := (integralHeld_eq l e).trans hheld
  have hS : l.integralSum c.ki e = sum := by rw [HeatLoop.integralSum, hH, hsum]
  have hI : clampNat 100000 sum = integ := (clampNat_eq _ _).trans hinteg
  have hR : rawOutput (proportional c.kp e) integ (c.fBoard * due) = raw := hraw
  unfold HeatLoop.computed
  simp only [hE, hS, hI, hR, clampNat_eq, HeatLoop.integralClamped, hH, clampOf_ne, Bool.decide_or]
  rfl

/-- A loop after the expiry, in the terms of the rules. -/
theorem positioned_zero (s u : State) (l m : HeatLoop) (h : ByQueue s u) (i : LoopIx) :
    HeatLoop.positioned (within s u l m) (fun _ => 0) i =
      if s.cl.image.loops[i].inUse = true ∧ s.ganged i = false then { (#v[l, m] : Vector HeatLoop 2)[i] with pos := 0 }
      else (#v[l, m] : Vector HeatLoop 2)[i] := by
  obtain ⟨-, -, himage, -, -, hganged⟩ := within_reads h l m i
  unfold HeatLoop.positioned
  rw [himage, hganged]
  rfl

/-- The period after the expiry: what the points then sample. -/
theorem expired_eq (s : State) :
    expired s =
      { announced s 1 (secondAfter s) (announced s 0 (firstAfter s) s) with
        bu := { s.bu with basis := some (basisOf s) }
        hl := { s.hl with loops :=
          #v[if s.cl.image.loops[(0 : LoopIx)].inUse = true ∧ s.ganged 0 = false then { firstAfter s with pos := 0 }
              else firstAfter s,
            if s.cl.image.loops[(1 : LoopIx)].inUse = true ∧ s.ganged 1 = false then { secondAfter s with pos := 0 }
              else secondAfter s] } } := by
  have hq : ByQueue s (announced s 1 (secondAfter s) (announced s 0 (firstAfter s) s)) :=
    announced_within s 1 _ (announced_within s 0 _ (.refl s))
  unfold expired
  rw [expireBoth_eq]
  generalize announced s 1 (secondAfter s) (announced s 0 (firstAfter s) s) = u at hq ⊢
  rw [putPositions_eq, positioned_zero _ _ _ _ hq, positioned_zero _ _ _ _ hq]
  rfl

/-- Settles O32: the two expiries, made one after the other, read nothing of each other but what a ganged HL1 takes. -/
theorem controlPeriodIsComputed : Obligations.ControlPeriodIsComputed := by
  refine ⟨fun s => ⟨periodOver_iff s, fun h => exec_of (if_neg (Bool.eq_false_iff.1 h))⟩, fun s h => ?_⟩
  intro cfg shared reduced computed l0 l1 announced' begun
  have hshared : ∀ i l, HeatLoop.sharedAs s i l = shared i l := fun i l => sharedAs_eq s i l rfl rfl
    (by unfold fullGrant; cases s.ownEntry i <;> rfl) rfl
  have hcomputed : ∀ i l, HeatLoop.expiredAs s (s.forcedOff i) i l = computed i l := by
    intro i l
    show (if s.forcedOff i = true then _ else _) = (if s.forcedOff i = true then _ else _)
    split
    · rfl
    · rw [hshared, computed_eq l _ _ rfl rfl rfl rfl rfl]
      rfl
  have h0 : firstAfter s = l0 := by
    show (if _ then _ else _) = (if _ then _ else _)
    rw [hcomputed]
    rfl
  have h1 : secondAfter s = l1 := by
    unfold secondAfter HeatLoop.followedAs
    rw [hcomputed, hshared, h0]
    rfl
  refine exec_of ((if_pos h).trans ?_)
  rw [periodsExpire_eq, expired_eq, h0, h1]
  have hq : ByQueue s (announced s 1 l1 (announced s 0 l0 s)) := announced_within s 1 _ (announced_within s 0 _ (.refl s))
  have ha : announced' 1 l1 (announced' 0 l0 s) = announced s 1 l1 (announced s 0 l0 s) := rfl
  rw [ha]
  generalize announced s 1 l1 (announced s 0 l0 s) = u at hq ⊢
  obtain ⟨-, -, hhl, hbu, -⟩ := hq.same
  dsimp only
  rw [hhl, hbu]

end Sys2Proof.Proofs.ControlPeriod
end

section
/-! PROOF. The budget unit: the demands it takes, and the grants that it forms from them (R106 to R113, R117). -/

namespace Sys2Proof.Proofs.Budget

open Sys2Proof Sys2Proof.Machine Sys2Proof.Proofs.Step Sys2Proof.Proofs.Event

-- Proofs are elaborated in order: in the joined text the parallel ones would hold more threads at once than the memory limit allows.
set_option Elab.async false

/-! ### Demands taken (R106 to R110) -/

theorem demandValid_eq (a : Addr) (c : DemandContent) :
    demandValid a c =
      decide (c.station = a.setWidth 8 ∧ c.loop.toNat ≤ 1 ∧ c.cls.toNat ≤ 1 ∧ c.demand.toNat ≤ 2000) := by
  simp only [demandValid, Nat.lt_succ_iff, Bool.decide_and, Bool.and_assoc]

theorem keyed_eq (x e : DemandEntry) : x.keyed e.station e.loop = decide (x.station = e.station ∧ x.loop = e.loop) :=
  Bool.eq_iff_iff.2 ((keyed_iff x e.station e.loop).trans decide_eq_true_iff.symm)

/-- A refreshed entry is the new one, its key being the same (R108). -/
theorem refresh_eq (table : List DemandEntry) (e : DemandEntry) (he : e.age = 3000) :
    refresh table e = table.map fun x => if decide (x.station = e.station ∧ x.loop = e.loop) then e else x := by
  refine List.map_congr_left fun x _ => ?_
  rw [keyed_eq]
  by_cases h : x.station = e.station ∧ x.loop = e.loop
  · obtain ⟨hs, hl⟩ := h
    simp only [hs, hl, and_self, decide_true, if_true, ← he]
  · simp only [h, decide_false, Bool.false_eq_true, if_false]

theorem demandApplies_eq (s : State) (e : DemandEntry) (he : e.age = 3000) :
    s.demandApplies e =
      if s.bu.table.any fun x => decide (x.station = e.station ∧ x.loop = e.loop) then
        { s with bu.table := s.bu.table.map fun x => if decide (x.station = e.station ∧ x.loop = e.loop) then e else x }
      else if s.bu.table.length < 32 then { s with bu.table := s.bu.table ++ [e] }
      else { s with bu.tableFull := true, bu.refusalTimer := some 3000 } := by
  unfold State.demandApplies
  rw [refresh_eq _ _ he]
  simp only [keyed_eq]

/-- Settles O35. -/
theorem demandIsTaken : Obligations.DemandIsTaken := by
  intro s source c ok taken
  have hArrives : ∀ (u : State) (a : Addr), u.demandArrives a c = taken u a := by
    intro u a
    show (if demandValid a c = true then _ else u) = (if ok a = true then _ else u)
    rw [demandValid_eq]
    split
    · exact demandApplies_eq u _ rfl
    · rfl
  refine ⟨fun ht => ?_, fun ho hs => ?_⟩
  · rw [exec_of_takes ht (fun t => t.demandArrives source c) rfl, hArrives]
  · rw [exec_of_sends hs ho ownDemandArrives rfl]
    show Host.Outcome.next (finish s (s.complete.demandArrives s.ownAddr c)) = _
    rw [hArrives]

/-! ### Shares (R112, R113) -/

/-- The demand of the own entry of a loop, where it is of a class. -/
def ownPart (s : State) (cls : Nat) (i : LoopIx) : Nat :=
  (s.ownEntry i).elim 0 fun e => if e.cls = cls then e.demand else 0

/-- The sum over a list of what two of its members bring is no less than what these bring. -/
theorem pair_le_sum {l : List DemandEntry} {a b : DemandEntry} (ha : a ∈ l) (hb : b ∈ l) (h : b ≠ a) :
    a.demand + b.demand ≤ (l.map (·.demand)).sum := by
  rw [← List.sum_map_erase (·.demand) ha, ← List.sum_map_erase (·.demand) ((List.mem_erase_of_ne h).2 hb)]
  omega

theorem member_le_sum {l : List DemandEntry} {a : DemandEntry} (ha : a ∈ l) : a.demand ≤ (l.map (·.demand)).sum := by
  rw [← List.sum_map_erase (·.demand) ha]
  omega

theorem ownEntry_spec {s : State} {i : LoopIx} {e : DemandEntry} (h : s.ownEntry i = some e) : e ∈ s.bu.table ∧ e.loop = i := by
  have hp := List.find?_some h
  simp only [Bool.and_eq_true, decide_eq_true_eq] at hp
  exact ⟨List.mem_of_find?_eq_some h, hp.2⟩

/-- The own demands of a class are among those of the table. -/
theorem ownParts_le (s : State) (cls : Nat) : ownPart s cls 0 + ownPart s cls 1 ≤ classSum s.bu.table cls := by
  have hmem : ∀ {i : LoopIx} {e : DemandEntry}, s.ownEntry i = some e → e.cls = cls →
      e ∈ s.bu.table.filter fun e => decide (e.cls = cls) :=
    fun h hc => List.mem_filter.2 ⟨(ownEntry_spec h).1, decide_eq_true hc⟩
  have hone : ∀ i : LoopIx, ownPart s cls i ≤ classSum s.bu.table cls := by
    intro i
    unfold ownPart
    cases he : s.ownEntry i with
    | none => exact Nat.zero_le _
    | some e =>
      show (if e.cls = cls then e.demand else 0) ≤ _
      split
      · rename_i hc
        exact member_le_sum (hmem he hc)
      · exact Nat.zero_le _
  have h0 := hone 0
  have h1 := hone 1
  by_cases hz : ownPart s cls 0 = 0 ∨ ownPart s cls 1 = 0
  · omega
  · unfold ownPart at hz ⊢
    cases he : s.ownEntry 0 with
    | none => simp [he] at hz
    | some a =>
      cases hf : s.ownEntry 1 with
      | none => simp [hf] at hz
      | some b =>
        simp only [he, hf, Option.elim_some, ite_eq_right_iff, not_or, Classical.not_imp] at hz ⊢
        obtain ⟨⟨ha, -⟩, hb, -⟩ := hz
        rw [if_pos ha, if_pos hb]
        refine pair_le_sum (hmem he ha) (hmem hf hb) ?_
        rintro rfl
        exact absurd ((ownEntry_spec he).2.symm.trans (ownEntry_spec hf).2) (by decide)

/-- The grant on a demand that lies `a` in class 0 and `b` in class 1. -/
def shareOf (budget s0 s1 a b : Nat) : Nat :=
  if budget ≤ s0 then a * budget / s0
  else if s1 ≤ budget - s0 then a + b
  else a + b * (budget - s0) / s1

/-- Two grants of one basis stay within the budget. -/
theorem shares_le {budget s0 s1 a a' b b' : Nat} (ha : a + a' ≤ s0) (hb : b + b' ≤ s1) :
    shareOf budget s0 s1 a b + shareOf budget s0 s1 a' b' ≤ budget := by
  have hpart : ∀ {x x' t m : Nat}, x + x' ≤ t → x * m / t + x' * m / t ≤ m := by
    intro x x' t m h
    refine Nat.div_add_div_le_add_div.trans (Nat.div_le_of_le_mul ?_)
    rw [← Nat.add_mul]
    exact Nat.mul_le_mul_right m h
  unfold shareOf
  by_cases h0 : budget ≤ s0
  · simp only [if_pos h0]
    exact hpart ha
  · simp only [if_neg h0]
    by_cases h1 : s1 ≤ budget - s0
    · simp only [if_pos h1]
      omega
    · simp only [if_neg h1]
      have := hpart (m := budget - s0) hb
      omega

theorem grantOf_own {s : State} (h : (basisOf s).safe = false) {i : LoopIx} {e : DemandEntry} (he : s.ownEntry i = some e)
    (d : Nat) : grantOf s.cl.image.station (basisOf s) i d = sharedGrant s.cl.image.station.budget (basisOf s) ⟨e.cls, e.demand⟩ := by
  have hown : (basisOf s).own i = some ⟨e.cls, e.demand⟩ := by
    match i, he with
    | 0, he => simp only [ShareBasis.own, if_pos, basisOf, he, Option.map_some]
    | 1, he => simp only [ShareBasis.own, basisOf, he, Option.map_some, Fin.one_eq_zero_iff, OfNat.ofNat_ne_one, if_false]
  unfold grantOf
  rw [h, if_neg (by decide), hown]

theorem grantOf_absent {s : State} (h : (basisOf s).safe = false) {i : LoopIx} (he : s.ownEntry i = none) (d : Nat) :
    grantOf s.cl.image.station (basisOf s) i d = 0 := by
  have hown : (basisOf s).own i = none := by
    match i, he with
    | 0, he => simp only [ShareBasis.own, if_pos, basisOf, he, Option.map_none]
    | 1, he => simp only [ShareBasis.own, basisOf, he, Option.map_none, Fin.one_eq_zero_iff, OfNat.ofNat_ne_one, if_false]
  unfold grantOf
  rw [h, if_neg (by decide), hown]

/-- The grant outside safe mode is the share of the own demand, in its class. -/
theorem grantOf_eq_share {s : State} (h : (basisOf s).safe = false) (hd : DemandsOk s) (i : LoopIx) (d : Nat) :
    grantOf s.cl.image.station (basisOf s) i d =
      shareOf s.cl.image.station.budget (basisOf s).s0 (basisOf s).s1 (ownPart s 0 i) (ownPart s 1 i) := by
  unfold ownPart
  cases he : s.ownEntry i with
  | none =>
    rw [grantOf_absent h he]
    simp [shareOf]
  | some e =>
    have hcls : e.cls ≤ 1 := (hd.2.2 e (ownEntry_spec he).1).1
    rw [grantOf_own h he]
    simp only [sharedGrant, shareOf, Option.elim_some]
    obtain hc | hc : e.cls = 0 ∨ e.cls = 1 := by omega
    · simp [hc]
    · simp [hc]

/-- Settles O36: the own demands are among those that the basis sums, class by class. -/
theorem grantsStayWithinTheBudget : Obligations.GrantsStayWithinTheBudget := by
  intro s d0 d1 c b g g0 g1
  refine ⟨fun hs => ⟨if_pos hs, if_pos hs⟩, fun hs i d e he => ?_, fun hd hsafe => ?_⟩
  · have hg : g i d = sharedGrant c.budget b ⟨e.cls, e.demand⟩ := grantOf_own hs he d
    rw [hg]
    have hpart : ∀ {m t : Nat}, m ≤ t → e.demand * m / t ≤ e.demand := by
      intro m t h
      refine Nat.div_le_of_le_mul ?_
      rw [Nat.mul_comm t]
      exact Nat.mul_le_mul_left _ h
    unfold sharedGrant
    dsimp only
    refine ⟨fun h0 hc => by rw [if_pos h0, if_pos hc], fun h0 hc => by rw [if_pos h0, if_neg hc], fun h0 hc => ?_,
      fun h0 hc h1 => by rw [if_neg (by omega), if_neg (by omega), if_neg hc], ?_⟩
    · rw [if_neg (by omega)]
      by_cases h1 : b.s1 ≤ c.budget - b.s0
      · rw [if_pos h1]
      · rw [if_neg h1, if_pos (hc.resolve_right h1)]
    · split
      · rename_i h0
        split
        · exact hpart h0
        · exact Nat.zero_le _
      · split
        · exact Nat.le_refl _
        · rename_i h1
          split
          · exact Nat.le_refl _
          · exact hpart (Nat.le_of_not_le h1)
  · cases hs : b.safe with
    | true =>
      have h0 : g0 = min d0 c.safeGrant := if_pos hs
      have h1 : g1 = min d1 c.safeGrant := if_pos hs
      omega
    | false =>
      have h0 : g0 = _ := grantOf_eq_share hs hd 0 d0
      have h1 : g1 = _ := grantOf_eq_share hs hd 1 d1
      rw [h0, h1]
      exact shares_le (ownParts_le s 0) (ownParts_le s 1)

end Sys2Proof.Proofs.Budget
end

section
/-! PROOF. The samples of the level and extraction units, and the peer view table (R120 to R125, R135 to R141, R157 to R159). -/

namespace Sys2Proof.Proofs.Units

open Sys2Proof Sys2Proof.Machine Sys2Proof.Proofs.Step

-- Proofs are elaborated in order: in the joined text the parallel ones would hold more threads at once than the memory limit allows.
set_option Elab.async false

/-! ### The level (R120 to R125, R129) -/

theorem levelValid_eq (x : Int) : levelValid x = decide (-500 ≤ x ∧ x ≤ 500) := by
  simp only [levelValid, Bool.decide_and]

theorem sampled_of_invalid {l : LevelUnit} {x : Int} (h : levelValid x = false) (c : LevelCfg) :
    l.sampled c x = { l with valid := 0, invalid := true } := by
  have hc : l.counted x = { l with valid := 0, invalid := true } := by
    rw [LevelUnit.counted, h]
    rfl
  unfold LevelUnit.sampled
  rw [hc]
  exact if_neg (by simp [LevelUnit.fresh])

theorem sampled_of_counting {l : LevelUnit} {x : Int} (h : levelValid x = true) (hi : l.invalid = true) (hv : l.valid < 2)
    (c : LevelCfg) : l.sampled c x = { l with raw := x, valid := l.valid + 1 } := by
  have hc : l.counted x = { l with raw := x, valid := l.valid + 1 } := by
    rw [LevelUnit.counted, if_pos h, if_pos hi, if_neg (by omega)]
  unfold LevelUnit.sampled
  rw [hc]
  exact if_neg (by simp [LevelUnit.fresh, hi])

/-- A valid sample that leaves the level valid. -/
theorem counted_of_valid {l : LevelUnit} {x : Int} (h : levelValid x = true) (hi : l.invalid = false ∨ 2 ≤ l.valid) :
    l.counted x = { l with raw := x, valid := if l.invalid then 0 else l.valid, invalid := false } := by
  rw [LevelUnit.counted, if_pos h]
  cases hl : l.invalid
  · rw [if_neg (by decide), if_neg (by decide), ← hl]
  · rw [if_pos rfl, if_pos (by have := hi.resolve_left (by rw [hl]; decide); omega), if_pos rfl]

theorem sampled_eq (l : LevelUnit) (c : LevelCfg) (x : Int) {valid invalid fresh request : Bool} {comp : Int}
    (hv : levelValid x = valid) (hi : (!valid || (l.invalid && decide (l.valid < 2))) = invalid)
    (hf : (valid && !invalid && l.settleTimer.isNone) = fresh)
    (hc : (if fresh then (if l.wave then max (-500) (min 500 (x + c.waveOffset)) else x) else l.comp) = comp)
    (hr : (if fresh then (if comp < c.feedOn then true else if comp < c.feedOff then l.request else false) else l.request) =
      request) :
    l.sampled c x =
      { l with
        raw := if valid then x else l.raw
        valid := if !valid then 0 else if l.invalid then (if invalid then l.valid + 1 else 0) else l.valid
        invalid := invalid, comp := comp, request := request, inhibit := l.inhibit && (request || !l.request) } := by
  cases valid
  · obtain rfl := hi
    obtain rfl := hf
    obtain rfl := hc
    obtain rfl := hr
    rw [sampled_of_invalid hv]
    simp
  · by_cases hcount : l.invalid = true ∧ l.valid < 2
    · obtain ⟨hinv, hlt⟩ := hcount
      obtain rfl : invalid = true := by rw [← hi, hinv, decide_eq_true hlt]; rfl
      obtain rfl := hf
      obtain rfl := hc
      obtain rfl := hr
      rw [sampled_of_counting hv hinv hlt]
      simp [hinv]
    · have hno : l.invalid = false ∨ 2 ≤ l.valid := by
        cases hl : l.invalid
        · exact .inl rfl
        · exact .inr (Nat.le_of_not_lt fun hlt => hcount ⟨hl, hlt⟩)
      obtain rfl : invalid = false := by
        rw [← hi, Bool.not_true, Bool.false_or, Bool.eq_false_iff, Ne, Bool.and_eq_true, decide_eq_true_eq]
        exact hcount
      have hfresh : LevelUnit.fresh { l with raw := x, valid := if l.invalid then 0 else l.valid, invalid := false } x = fresh := by
        rw [← hf]
        simp [LevelUnit.fresh, hv]
      unfold LevelUnit.sampled
      rw [counted_of_valid hv hno]
      dsimp only
      rw [hfresh]
      cases fresh
      · obtain rfl := hc
        obtain rfl := hr
        simp
      · obtain rfl := hc
        obtain rfl := hr
        rfl

/-- Settles O37. -/
theorem levelIsSampled : Obligations.LevelIsSampled := by
  intro s reading c x l ha hu ht valid invalid fresh comp request
  refine exec_of ((if_pos ⟨ha, hu, ht⟩).trans ?_)
  have h : l.sampled c x = _ := sampled_eq l c x (levelValid_eq x) rfl rfl rfl rfl
  unfold State.convertLevel
  show State.sample { s with lu := { l.sampled c x with levelTimer := some 100 } } _ = _
  rw [h]

/-! ### The fan (R135 to R141) -/

theorem ramp_eq (step target output : Nat) :
    ramp step target output =
      if target ≤ output then (if output - target ≤ step then target else output - step)
      else if target - output ≤ step then target
      else output + step := by
  unfold ramp
  by_cases hle : target ≤ output
  · rw [if_pos hle]
    split <;> split <;> omega
  · rw [if_neg hle, if_pos (by omega)]
    split <;> omega

/-- Settles O39. -/
theorem extractionSteps : Obligations.ExtractionSteps := by
  intro s c
  refine ⟨fun reading ha hu ht => ?_, fun ha hu => ?_, fun h0 => if_pos h0, fun h0 ho => (if_neg h0).trans (if_pos ho),
    fun h0 ho => (if_neg h0).trans (if_neg ho)⟩
  · intro airflow output
    refine exec_of ((if_pos ⟨ha, hu, ht⟩).trans ?_)
    unfold ExtractionUnit.stepped
    rw [ramp_eq]
    simp only [← Bool.decide_and]
    rfl
  · exact if_pos (Bool.and_eq_true_iff.2 ⟨hu, ha⟩)

/-! ### Peers (R157 to R159) -/

/-- A frame that the receive filter delivers reaches its block. -/
theorem takeFrom_of_delivered {s : State} {source : Addr} (h : s.hears source = true) {k : Kind} (hd : s.acked.delivers k = true)
    (act : State → State) : s.takeFrom k source act = act s.acked := by
  unfold State.takeFrom
  rw [if_pos (receiving_of_hears h), takeHeard_of_hears h]
  exact if_pos (Bool.and_eq_true_iff.2 ⟨hd, valid_of_hears h⟩)

/-- An own frame that completes where its kind is delivered reaches its block. -/
theorem takeOwn_of_delivered {s : State} {f : Frame} (h : s.sends f = true) (hd : s.complete.delivers f.kind = true)
    (act : State → Addr → Frame → State) : s.takeOwn f.kind act = act s.complete s.ownAddr f := by
  simp only [State.sends, decide_eq_true_eq, Option.map_eq_some_iff] at h
  obtain ⟨x, hx, rfl⟩ := h
  simp only [State.takeOwn, hx, if_true, hd]

theorem delivers_views {t : State} (h : t.cl.station = .joining ∨ t.cl.station = .operating) {k : Kind}
    (hk : k = .state ∨ k = .join) : t.delivers k = true := by
  unfold State.delivers
  obtain h | h := h <;> rw [h]
  obtain rfl | rfl := hk <;> rfl

theorem any_addr_iff (peers : List PeerEntry) (a : Addr) :
    (peers.any fun x => decide (x.addr = a)) = true ↔ ∃ x ∈ peers, x.addr = a := by
  simp only [List.any_eq_true, decide_eq_true_eq]

theorem stateArrives_eq (u : State) (a : Addr) (c : StateContent) {e : PeerEntry}
    (he : { addr := a, stateSeen := true, raised := c.raised, running := c.running, silence := some 1000, silent := false } = e) :
    u.stateArrives a c =
      if ∃ x ∈ u.mb.peers, x.addr = a then { u with mb.peers := u.mb.peers.map fun x => if x.addr = a then e else x }
      else { u with mb.peers := u.mb.peers ++ [e] } := by
  obtain rfl := he
  unfold State.stateArrives putPeer
  simp only [any_addr_iff]
  split <;> rfl

theorem peer_isSome_iff (u : State) (a : Addr) : (u.peer a).isSome = true ↔ ∃ x ∈ u.mb.peers, x.addr = a := by
  rw [State.peer, List.find?_isSome]
  simp only [decide_eq_true_eq]

theorem joinArrives_eq (u : State) (a : Addr) :
    u.joinArrives a =
      if ∃ x ∈ u.mb.peers, x.addr = a then u
      else
        { u with
          mb.peers :=
            u.mb.peers ++
              [{ addr := a, stateSeen := false, raised := 0, running := 0, silence := some 1000, silent := false }] } := by
  unfold State.joinArrives
  simp only [peer_isSome_iff]

theorem ownJoinArrives_eq (u : State) (a : Addr) (f : Frame) :
    ownJoinArrives u a f = { u.joinArrives a with cl.joinMark := u.cl.joinMark || decide (u.cl.station = .joining) } := by
  have hmark : (u.joinArrives a).cl.joinMark = u.cl.joinMark := by
    rw [joinArrives_eq]
    split <;> rfl
  unfold ownJoinArrives
  dsimp only
  split
  · rename_i h
    rw [decide_eq_true h, Bool.or_true]
  · rename_i h
    rw [decide_eq_false h, Bool.or_false, ← hmark]

/-- Settles O42. -/
theorem peersAreHeard : Obligations.PeersAreHeard := by
  intro s a put joined alarmed
  have hput : ∀ u c, State.stateArrives u a c = put u c := fun u c => stateArrives_eq u a c rfl
  have hjoined : ∀ u, State.joinArrives u a = joined u := fun u => joinArrives_eq u a
  refine ⟨fun hst => ⟨fun c => ⟨fun hh => exec_of ?_, fun hs hown => exec_of ?_⟩,
    fun c => ⟨fun hh => exec_of ?_, fun hs hown => exec_of ?_⟩⟩, fun c => ⟨fun ht => ?_, fun ho hs hown => ?_⟩, rfl⟩
  · exact (takeFrom_of_delivered hh (delivers_views hst (.inl rfl)) (fun t => t.stateArrives a c)).trans (hput _ c)
  · refine (takeOwn_of_delivered hs (delivers_views hst (.inl rfl)) ownStateArrives).trans ?_
    rw [hown]
    exact hput _ c
  · exact (takeFrom_of_delivered hh (delivers_views hst (.inr rfl)) (fun t => t.joinArrives a)).trans (hjoined _)
  · refine (takeOwn_of_delivered hs (delivers_views hst (.inr rfl)) ownJoinArrives).trans ?_
    rw [hown, ownJoinArrives_eq, hjoined]
    rfl
  · exact exec_of_takes ht (fun t => t.alarmArrives a c) rfl
  · rw [exec_of_sends hs ho ownAlarmArrives rfl, hown]
    rfl

end Sys2Proof.Proofs.Units
end

section
/-! PROOF. The monitor points: their samples, their acknowledgement, the ALARMs queued and the alarm line (R146 to R154). -/

namespace Sys2Proof.Proofs.Sampling

open Sys2Proof Sys2Proof.Machine Sys2Proof.Proofs.Step Sys2Proof.Proofs.Alarm

-- Proofs are elaborated in order: in the joined text the parallel ones would hold more threads at once than the memory limit allows.
set_option Elab.async false

/-! ### The alarm line and the queue -/

/-- The state with its alarm line put otherwise. -/
def lined (u : State) (line : AlarmLine) (gap : Timer) : State := { u with mb.alarm := line, mb.gapTimer := gap }

/-- Queueing a frame and a change of the alarm line act in either order. -/
theorem enqueue_lined (u : State) (line : AlarmLine) (gap : Timer) (f : Frame) :
    (lined u line gap).enqueue f = lined (u.enqueue f) line gap := by
  have ha : (lined u line gap).accepts = u.accepts := rfl
  unfold State.enqueue State.enqueueFor
  rw [ha]
  split
  · show (if (u.li.queue.any _) = true then _ else State.place (lined u line gap) _) = _
    split
    · rfl
    · unfold State.place
      show (if u.li.queue.length < 16 then _ else _) = _
      split
      · rfl
      · show (match lastIdle u.li.queue with | none => _ | some v => _) = _
        cases lastIdle u.li.queue with
        | none => rfl
        | some v =>
          dsimp only
          split <;> rfl
  · rfl

/-- An ALARM of a point queued, and the STATE that waits queued anew behind it (R152, log 19). -/
def alarmQueued (img : Image) (u : State) (i : Ix8) (raised : Bool) : State :=
  let a := u.enqueue (.alarm { point := i, raised := raised, trip := img.points[i].trip })
  if a.li.queue.any fun e => isStateFrame e.frame then a.enqueue (.state a.stateContent) else a

theorem queueAlarm_eq (u : State) (i : Ix8) (raised : Bool) : u.queueAlarm i raised = alarmQueued u.cl.image u i raised := rfl

theorem alarmQueued_within (img : Image) (u : State) (i : Ix8) (raised : Bool) : ByQueue u (alarmQueued img u i raised) := by
  unfold alarmQueued
  dsimp only
  split
  · exact (enqueue_within _ _).trans (enqueue_within _ _)
  · exact enqueue_within _ _

theorem alarmQueued_image (img : Image) (u : State) (i : Ix8) (raised : Bool) :
    (alarmQueued img u i raised).cl.image = u.cl.image := by
  have h := alarmQueued_within img u i raised
  rw [ByQueue] at h
  rw [h]

theorem alarmQueued_lined (img : Image) (u : State) (line : AlarmLine) (gap : Timer) (i : Ix8) (raised : Bool) :
    alarmQueued img (lined u line gap) i raised = lined (alarmQueued img u i raised) line gap := by
  unfold alarmQueued
  rw [enqueue_lined]
  generalize u.enqueue (.alarm { point := i, raised := raised, trip := img.points[i].trip }) = a
  show (if (a.li.queue.any _) = true then (lined a line gap).enqueue (.state a.stateContent) else _) = _
  rw [enqueue_lined]
  dsimp only
  split <;> rfl

/-- The ALARMs that an event queues, point by point, `q` saying which. -/
def alarmsQueued (img : Image) (q : Ix8 → Option Bool) (u : State) : State :=
  all8.foldl (fun u i => (q i).elim u fun raised => alarmQueued img u i raised) u

theorem alarmsQueued_within (img : Image) (q : Ix8 → Option Bool) (u : State) : ByQueue u (alarmsQueued img q u) := by
  refine foldl_within ByQueue .refl .trans _ (fun u i => ?_) all8 u
  cases q i with
  | none => exact .refl u
  | some raised => exact alarmQueued_within img u i raised

theorem alarmsQueued_mb (img : Image) (q : Ix8 → Option Bool) (u : State) : (alarmsQueued img q u).mb = u.mb := by
  have h := alarmsQueued_within img q u
  rw [ByQueue] at h
  rw [h]

theorem alarmsQueued_lined (img : Image) (q : Ix8 → Option Bool) (u : State) (line : AlarmLine) (gap : Timer) :
    alarmsQueued img q (lined u line gap) = lined (alarmsQueued img q u) line gap := by
  unfold alarmsQueued
  generalize all8 = l
  induction l generalizing u with
  | nil => rfl
  | cons i l ih =>
    rw [List.foldl_cons, List.foldl_cons, ← ih]
    cases q i with
    | none => rfl
    | some raised =>
      rw [Option.elim_some, alarmQueued_lined]
      rfl

theorem queueAlarms_eq (s : State) (before : Vector Point 8) :
    s.queueAlarms before = alarmsQueued s.cl.image (fun i => alarmFor before[i].st s.mb.points[i].st) s := by
  unfold State.queueAlarms alarmsQueued
  have hfold : ∀ (l : List Ix8) (u : State), u.cl.image = s.cl.image →
      l.foldl (fun t i =>
        match alarmFor before[i].st s.mb.points[i].st with
        | none => t
        | some raised => t.queueAlarm i raised) u =
      l.foldl (fun u i => (alarmFor before[i].st s.mb.points[i].st).elim u fun raised => alarmQueued s.cl.image u i raised) u := by
    intro l
    induction l with
    | nil => exact fun _ _ => rfl
    | cons i l ih =>
      intro u hu
      rw [List.foldl_cons, List.foldl_cons]
      cases alarmFor before[i].st s.mb.points[i].st with
      | none => exact ih u hu
      | some raised =>
        dsimp only
        rw [queueAlarm_eq, hu]
        exact ih _ ((alarmQueued_image _ u i raised).trans hu)
  exact hfold all8 s rfl

/-! ### A sampling (R148 to R154) -/

/-- What a sample makes of an alarm state, the finding being present or absent (R150). -/
def movedTo (p : Point) (qualification : Nat) (present : Bool) : PointState × Nat :=
  ((p.sampled qualification present).st, (p.sampled qualification present).count)

/-- The ALARM of a move of one sample: an entry to RAISED, or to NORMAL from an acknowledged alarm. -/
theorem alarmFor_sampled (p : Point) (qualification : Nat) (present : Bool) :
    alarmFor p.st (p.sampled qualification present).st =
      if p.st ≠ .raised ∧ (p.sampled qualification present).st = .raised then some true
      else if p.st = .raisedAcked ∧ (p.sampled qualification present).st = .normal then some false
      else none := by
  obtain ⟨st, count, memory⟩ := p
  cases st <;> cases present
  case qualifying.true =>
    unfold Point.sampled
    dsimp only
    split <;> rfl
  all_goals rfl

theorem alarmFor_same (st : PointState) : alarmFor st st = none := by cases st <;> rfl

/-- The points that sample at an event (R148). -/
def samplesAt (s : State) (events : List (Option Update)) (i : Ix8) : Bool :=
  s.cl.image.points[i].inUse && decide (pointUpdate s.cl.image.points[i] ∈ events)

/-- The finding of a point (R149). -/
def findingOf (s : State) (i : Ix8) : Bool := found s s.cl.image.points[i] s.mb.points[i]

/-- Where a point has moved to, the sampling being its own. -/
def movedAt (s : State) (i : Ix8) : PointState × Nat :=
  movedTo s.mb.points[i] s.cl.image.points[i].qualification (findingOf s i)

/-- A point that enters RAISED at an event. -/
def raisesAt (s : State) (events : List (Option Update)) (i : Ix8) : Bool :=
  samplesAt s events i && decide (s.mb.points[i].st ≠ .raised ∧ (movedAt s i).1 = .raised)

/-- A point whose acknowledged alarm ends at an event. -/
def clearsAt (s : State) (events : List (Option Update)) (i : Ix8) : Bool :=
  samplesAt s events i && decide (s.mb.points[i].st = .raisedAcked ∧ (movedAt s i).1 = .normal)

theorem sampledPoints_at (s : State) (events : List (Option Update)) (i : Ix8) :
    (sampledPoints s events)[i] =
      if samplesAt s events i then
        { st := (movedAt s i).1, count := (movedAt s i).2
          memory := if s.cl.image.points[i].isSignal then s.mb.points[i].memory else findingOf s i }
      else s.mb.points[i] := by
  have hmemory : ∀ (p : Point) (n : Nat) (b : Bool), (p.sampled n b).memory = p.memory := by
    intro p n b
    unfold Point.sampled
    repeat' split
    all_goals rfl
  rw [sampledPoints_get]
  unfold samplesAt
  simp only [Bool.and_eq_true, decide_eq_true_eq]
  split
  · unfold samplePoint
    dsimp only
    split
    · rw [← hmemory s.mb.points[i] s.cl.image.points[i].qualification (findingOf s i)]
      rfl
    · rfl
  · rfl

/-- The ALARM of each point at an event. -/
theorem alarmFor_at (s : State) (events : List (Option Update)) (i : Ix8) :
    alarmFor s.mb.points[i].st (sampledPoints s events)[i].st =
      if raisesAt s events i then some true else if clearsAt s events i then some false else none := by
  rw [sampledPoints_at]
  unfold raisesAt clearsAt
  cases samplesAt s events i
  · exact alarmFor_same _
  · simp only [if_true, Bool.true_and, decide_eq_true_eq]
    exact alarmFor_sampled _ _ _

/-- The alarm line is asserted at an event (R153). -/
def assertsAt (s : State) (events : List (Option Update)) : Bool := s.operating && all8.any (raisesAt s events)

theorem newlyRaised_at (s : State) (events : List (Option Update)) :
    newlyRaised s.mb.points (sampledPoints s events) = all8.any (raisesAt s events) := by
  unfold newlyRaised
  congr 1
  funext i
  rw [alarmFor_at]
  cases raisesAt s events i
  · cases clearsAt s events i <;> rfl
  · rfl

/-- An entry to RAISED asserts the alarm line in OPERATING and ends a gap (R153, R154). -/
theorem raiseLine_eq (u : State) (raised : Bool) :
    u.raiseLine raised =
      lined u (if u.operating && raised then .asserted else u.mb.alarm) (if u.operating && raised then none else u.mb.gapTimer) := by
  unfold State.raiseLine
  cases raised <;> cases u.operating <;> rfl

/-- A sampling: the points, the alarm line, and then the ALARMs. -/
theorem sample_eq (s : State) (events : List (Option Update)) :
    s.sample events =
      lined (alarmsQueued s.cl.image
          (fun i => if raisesAt s events i then some true else if clearsAt s events i then some false else none)
          { s with mb.points := sampledPoints s events })
        (if assertsAt s events then .asserted else s.mb.alarm) (if assertsAt s events then none else s.mb.gapTimer) := by
  unfold State.sample
  dsimp only
  rw [raiseLine_eq, queueAlarms_eq, ← alarmsQueued_lined, newlyRaised_at]
  exact congrArg (fun q => alarmsQueued s.cl.image q _) (funext fun i => alarmFor_at s events i)

theorem found_eq (s : State) (c : PointCfg) (p : Point) :
    found s c p =
      if c.isSignal then s.select c.signal
      else if c.below then
        decide (s.analog c.analog < c.threshold ∨ (p.memory = true ∧ s.analog c.analog < c.threshold + c.hysteresis))
      else
        decide (c.threshold < s.analog c.analog ∨ (p.memory = true ∧ c.threshold - c.hysteresis < s.analog c.analog)) := by
  simp only [found, Bool.decide_or, Bool.decide_and, Bool.decide_eq_true]

/-- Settles O40. -/
theorem pointsSample : Obligations.PointsSample := by
  refine ⟨fun s => ⟨rfl, rfl, rfl, ?_, rfl, rfl, rfl⟩, fun s events => ?_⟩
  · show ((if s.cl.image.loops[(1 : LoopIx)].ganged then _ else _ : Nat) : Int) = _
    split <;> rfl
  · intro t samples present moved raises clears asserted
    have hpresent : ∀ i, present i = findingOf s i := fun i => (found_eq s _ _).symm
    have hmoved : ∀ i, moved i = movedAt s i := by
      intro i
      unfold movedAt movedTo
      rw [← hpresent]
      simp only [moved]
      generalize present i = finding
      generalize s.mb.points[i] = p
      obtain ⟨st, count, memory⟩ := p
      cases st <;> cases finding
      case qualifying.true =>
        unfold Point.sampled
        dsimp only
        split <;> rfl
      all_goals rfl
    have hraises : ∀ i, raises i = raisesAt s events i := by
      intro i
      unfold raisesAt
      rw [← hmoved]
      rfl
    have hclears : ∀ i, clears i = clearsAt s events i := by
      intro i
      unfold clearsAt
      rw [← hmoved]
      rfl
    have hasserted : asserted = assertsAt s events := by
      show (s.operating && all8.any raises) = _
      rw [funext hraises]
      rfl
    have hpoints : t.mb.points = sampledPoints s events := by
      show (s.sample events).mb.points = _
      rw [sample_eq]
      show (alarmsQueued _ _ _).mb.points = _
      rw [alarmsQueued_mb]
    refine ⟨sample_within s events, fun i => ?_, ?_, ?_, ?_⟩
    · rw [hpoints, sampledPoints_at, hmoved, hpresent]
      rfl
    · rw [hasserted]
      show (s.sample events).mb.alarm = _
      rw [sample_eq]
      rfl
    · rw [hasserted]
      show (s.sample events).mb.gapTimer = _
      rw [sample_eq]
      rfl
    · rw [hpoints]
      show (s.sample events).li = _
      rw [sample_eq]
      show (alarmsQueued _ _ _).li = _
      unfold alarmsQueued
      congr 2
      funext u i
      rw [hraises, hclears]
      dsimp only
      cases raisesAt s events i
      · cases clearsAt s events i <;> rfl
      · rfl

/-! ### An acknowledgement (R151 to R154) -/

/-- A point after an acknowledgement that names it or not (R151). -/
theorem ackPoints_at (s : State) (set : BitVec 8) (i : Ix8) :
    (ackPoints s set)[i] =
      if set.getLsbD i.val = false then s.mb.points[i]
      else if s.mb.points[i].st = .raised then { s.mb.points[i] with st := .raisedAcked, count := 0 }
      else if s.mb.points[i].st = .clearedUnacked then { s.mb.points[i] with st := .normal, count := 0 }
      else s.mb.points[i] := by
  have hget : (ackPoints s set)[i] = if set.getLsbD i.val then s.mb.points[i].acked else s.mb.points[i] := by
    unfold ackPoints
    simp only [Fin.getElem_fin, Vector.getElem_mapIdx]
  rw [hget]
  cases set.getLsbD i.val
  · rfl
  · unfold Point.acked
    simp only [if_true, Bool.true_eq_false, if_false]
    split <;> simp_all

/-- An acknowledgement queues the ALARM of each CLEARED-UNACKED point that it names (R152). -/
theorem alarmFor_ack (s : State) (set : BitVec 8) (i : Ix8) :
    alarmFor s.mb.points[i].st (ackPoints s set)[i].st =
      if set.getLsbD i.val = true ∧ s.mb.points[i].st = .clearedUnacked then some false else none := by
  rw [ackPoints_at]
  cases set.getLsbD i.val
  · exact alarmFor_same _
  · generalize s.mb.points[i] = p
    obtain ⟨st, count, memory⟩ := p
    cases st <;> rfl

/-- The alarm line at an acknowledgement (R153, R154). -/
theorem ackLine_eq (u : State) (took : Bool) :
    u.ackLine took =
      lined u
        (if took = false ∨ u.mb.alarm = .gap then u.mb.alarm else if u.anyAlarmed then .gap else .deasserted)
        (if took = true ∧ u.mb.alarm ≠ .gap ∧ u.anyAlarmed = true then some 50 else u.mb.gapTimer) := by
  unfold State.ackLine
  by_cases h : took = false ∨ u.mb.alarm = .gap
  · rw [if_pos (by simpa using h), if_pos h, if_neg (by
      rintro ⟨ht, hg, -⟩
      exact h.elim (fun hf => absurd (hf.symm.trans ht) (by decide)) hg)]
    rfl
  · have h' := h
    rw [not_or, Bool.not_eq_false] at h'
    obtain ⟨ht, hg⟩ := h'
    rw [if_neg (by simpa using h), if_neg h]
    cases ha : u.anyAlarmed
    · rw [if_neg (by decide), if_neg (by decide), if_neg (by rintro ⟨-, -, h⟩; exact absurd h (by decide))]
      rfl
    · rw [if_pos rfl, if_pos rfl, if_pos ⟨ht, hg, rfl⟩]
      rfl

theorem alarmed_eq (p : Point) : p.alarmed = decide (p.st = .raised ∨ p.st = .clearedUnacked) := by
  unfold Point.alarmed
  cases p.st <;> rfl

/-- Settles O43. -/
theorem alarmsAreAcknowledged : Obligations.AlarmsAreAcknowledged := by
  intro s h set hc after alarmed takes remain
  have hafter : ∀ i, (ackPoints s.acked set)[i] = after i := ackPoints_at s.acked set
  have htook : decide (s.acked.unackedSet &&& set ≠ 0) = takes := by
    refine Bool.eq_iff_iff.2 (decide_eq_true_iff.trans ((took_iff s.acked set).trans ?_))
    show _ ↔ (all8.any fun i => set.getLsbD i.val && alarmed s.mb.points[i]) = true
    simp only [List.any_eq_true, mem_all8, true_and, Bool.and_eq_true, alarmed_eq]
    rfl
  have hremain : State.anyAlarmed { s.acked with mb.points := ackPoints s.acked set } = remain := by
    refine Bool.eq_iff_iff.2 ((anyAlarmed_iff _).trans ?_)
    show (∃ i : Ix8, (ackPoints s.acked set)[i].alarmed = true) ↔ (all8.any fun i => alarmed (after i)) = true
    simp only [List.any_eq_true, mem_all8, true_and, alarmed_eq, hafter]
    rfl
  have hstate : (answerAlarmAck set s.acked).state =
      lined (alarmsQueued s.cl.image
          (fun i => if set.getLsbD i.val = true ∧ s.mb.points[i].st = .clearedUnacked then some false else none)
          { s.acked with mb.points := ackPoints s.acked set })
        (if takes = false ∨ s.mb.alarm = .gap then s.mb.alarm else if remain then .gap else .deasserted)
        (if takes = true ∧ s.mb.alarm ≠ .gap ∧ remain = true then some 50 else s.mb.gapTimer) := by
    unfold answerAlarmAck
    dsimp only
    rw [htook, ackLine_eq, hremain, queueAlarms_eq, ← alarmsQueued_lined]
    exact congrArg (fun q => alarmsQueued s.cl.image q _) (funext fun i => alarmFor_ack s.acked set i)
  have hwithin : BySampling s.acked (answerAlarmAck set s.acked).state := by
    rw [hstate]
    have hq := (alarmsQueued_within s.cl.image
      (fun i => if set.getLsbD i.val = true ∧ s.mb.points[i].st = .clearedUnacked then some false else none)
      { s.acked with mb.points := ackPoints s.acked set }).bySampling
    generalize alarmsQueued s.cl.image _ _ = u at hq ⊢
    rw [BySampling] at hq ⊢
    rw [hq]
    rfl
  refine ⟨(answerAlarmAck set s.acked).state, exec_of_answer hc (act := answerAlarmAck set) rfl rfl (.inl rfl), hwithin,
    fun i => ?_, ?_, ?_, ?_⟩
  · rw [← hafter, hstate]
    show (alarmsQueued _ _ _).mb.points[i] = _
    rw [alarmsQueued_mb]
  · rw [hstate]
    rfl
  · rw [hstate]
    rfl
  · have hpoints : (answerAlarmAck set s.acked).state.mb.points = ackPoints s.acked set := by
      rw [hstate]
      show (alarmsQueued _ _ _).mb.points = _
      rw [alarmsQueued_mb]
    rw [hpoints, hstate]
    show (alarmsQueued _ _ _).li = _
    unfold alarmsQueued
    congr 2
    funext u i
    dsimp only
    split <;> rfl

end Sys2Proof.Proofs.Sampling
end

section
/-! PROOF. The feeder, the cells and the line-stop unit (R85, R126 to R131, R165 to R175). -/

namespace Sys2Proof.Proofs.Interlocks

open Sys2Proof Sys2Proof.Machine Sys2Proof.Proofs.Step Sys2Proof.Proofs.ChannelActs Sys2Proof.Proofs.ChannelCommands

-- Proofs are elaborated in order: in the joined text the parallel ones would hold more threads at once than the memory limit allows.
set_option Elab.async false
open Sys2Proof.Proofs.Halt Sys2Proof.Proofs.Continue

/-! ### The feeder (R85, R126 to R131) -/

/-- The level unit's channel after a start on it. -/
def ownerStarted (s : State) (k : Chan) : Channel :=
  if s.ac[k].st ≠ .idle then s.ac[k]
  else if s.chanPermit k then s.ac[k].arms (s.chanCfg k) false
  else
    { s.ac[k] with st := .blocked, timer := none, saved := none, cause := .permit, blockedMark := s.windowOccupied k }

theorem ownerStart_acts {s : State} {k : Chan} (ho : s.operating = true) (hp : s.ib.process = .run)
    (hm : (s.chanCfg k).mode = .free) :
    ActsOn s (s.ownerStart k).1 k (ownerStarted s k) false false ∧
      ((s.ownerStart k).2 = .done ↔ s.ac[k].st = .idle) := by
  have hstart : s.ownerStart k = s.startChan (s.chanPermit k) k := if_pos ho
  have hrun : ¬ s.ib.process = .stopped := by rw [hp]; decide
  have hoff : ¬ (s.chanCfg k).mode = .off := by rw [hm]; decide
  have hboard : (s.chanCfg k).mode ≠ .board := by rw [hm]; decide
  rw [hstart]
  unfold State.startChan ownerStarted
  rw [if_neg hrun]
  by_cases hi : s.ac[k].st = .idle
  · rw [if_neg (by rintro (h | h); exacts [hoff h, h hi]), if_neg (not_not.2 hi)]
    cases s.chanPermit k
    · exact ⟨blocked_uncounted (by rw [hi]; decide), fun _ => hi, fun _ => rfl⟩
    · refine ⟨(enterArmed_acts s k).as ?_ rfl ?_, fun _ => hi, fun _ => rfl⟩
      · rw [enterArmed_self]
        exact arms_of_not_board hboard _ _ _
      · rw [decide_eq_false hboard, Bool.false_and]
  · rw [if_pos (.inr hi), if_pos hi]
    exact ⟨.refl s k, fun h => absurd (show ResultCode.refusedState = .done from h) (by decide),
      fun h => absurd h hi⟩

theorem acts_ac {s t : State} {k : Chan} {x : Channel} {c m : Bool} (h : ActsOn s t k x c m) : t.ac = s.ac.set k x :=
  ChannelEvents.set_of_members h.self h.other

section
variable {s : State} {k : Chan} (hk : ownedChanOf s.cl.image = some k)
include hk

theorem feedStart_eq :
    s.feedStart = { (s.ownerStart k).1 with lu.feeder := if (s.ownerStart k).2 = .done then .feeding else .waiting } := by
  unfold State.feedStart
  rw [hk]

theorem feedHalt_eq : s.feedHalt = { s.haltChan k with lu.feeder := .rest, lu.feedTimer := none } := by
  unfold State.feedHalt
  rw [hk]

/-- A start of the feeder: its channel is started, and the feeder is FEEDING where that was accepted. -/
theorem feedStart_spec (ho : s.operating = true) (hp : s.ib.process = .run) (hm : (s.chanCfg k).mode = .free) :
    s.feedStart.lu = { s.lu with feeder := if s.ac[k].st = .idle then .feeding else .waiting } ∧
      s.feedStart.ac = s.ac.set k (ownerStarted s k) := by
  obtain ⟨ha, hd⟩ := ownerStart_acts ho hp hm
  have hlu := ha.within.same.2.2.2.1
  have hac := acts_ac ha
  rw [feedStart_eq hk]
  refine ⟨?_, hac⟩
  dsimp only
  rw [hlu]
  simp only [hd]

theorem feedHalt_spec :
    s.feedHalt.lu = { s.lu with feeder := .rest, feedTimer := none } ∧
      s.feedHalt.ac = s.ac.set k (Channel.halted (s.chanCfg k) s.ac[k]) := by
  have ha := haltChan_acts s k
  have hlu := ha.within.same.2.2.2.1
  have hac := acts_ac ha
  rw [feedHalt_eq hk]
  refine ⟨?_, hac⟩
  dsimp only
  rw [hlu]

end

theorem operating_of_feedAllowed {s : State} (h : s.feedAllowed = true) : s.operating = true ∧ s.ib.process = .run := by
  simp only [State.feedAllowed, Bool.and_eq_true, decide_eq_true_eq] at h
  exact ⟨h.1.1.1.1.1.2, h.1.1.1.1.2⟩

/-- A feeder that waits on a channel that is not IDLE starts nothing (R128). -/
theorem waiting_spec {s : State} {k : Chan} (hk : ownedChanOf s.cl.image = some k) (hw : s.lu.feeder = .waiting)
    (ha : s.feedAllowed = true) (hm : (s.chanCfg k).mode = .free) :
    s.feedFollows.lu = { s.lu with feeder := if s.ac[k].st = .idle then .feeding else .waiting } ∧
      s.feedFollows.ac = s.ac.set k (ownerStarted s k) := by
  have hidle : s.ownedIdle = decide (s.ac[k].st = .idle) := by
    unfold State.ownedIdle
    rw [hk]
  obtain ⟨ho, hp⟩ := operating_of_feedAllowed ha
  unfold State.feedFollows
  rw [hw]
  dsimp only
  rw [if_pos ha, hidle]
  by_cases hi : s.ac[k].st = .idle
  · rw [if_pos (decide_eq_true hi)]
    exact feedStart_spec hk ho hp hm
  · rw [if_neg (by simpa using hi), if_neg hi, ownerStarted, if_pos hi, ← hw]
    exact ⟨rfl, by simp⟩

/-- Settles O38. -/
theorem feederFollows : Obligations.FeederFollows := by
  refine ⟨fun s k hk hm => ?_, fun s h hc => ⟨fun hu => ?_, fun hu => ?_⟩⟩
  · intro c x started halted feeder
    refine ⟨feedFollows_within s, fun ha hf => ?_, fun ha hf => ?_, fun ha hf => waiting_spec hk hf ha hm, fun ha hf => ?_,
      fun ha hf => ?_⟩
    · obtain ⟨ho, hp⟩ := operating_of_feedAllowed ha
      have h := feedStart_spec (s := { s with lu.feedTimer := some (1000 * s.cl.image.level.maxFeed) }) hk ho hp hm
      unfold State.feedFollows
      rw [hf]
      dsimp only
      rw [if_pos ha]
      exact h
    · unfold State.feedFollows
      rw [hf]
      exact if_pos ha
    · unfold State.feedFollows
      rw [hf]
      exact if_neg (Bool.eq_false_iff.1 ha)
    · have hhalt : s.feedFollows = s.feedHalt := by
        unfold State.feedFollows
        cases hf' : s.lu.feeder with
        | rest => exact absurd hf' hf
        | feeding => exact if_neg (Bool.eq_false_iff.1 ha)
        | waiting => exact if_neg (Bool.eq_false_iff.1 ha)
      rw [hhalt]
      exact feedHalt_spec hk
  · refine exec_of_answer hc (act := answerLevelFeedReset) rfl ((if_pos hu).trans ?_) (.inl rfl)
    unfold feedResetData
    rw [flagByte_three]
    rfl
  · exact exec_of_refusal hc (act := answerLevelFeedReset) rfl (if_neg (Bool.eq_false_iff.1 hu))

/-! ### Cells (R165 to R167) -/

theorem formCell_of_unused {s : State} {i : Ix8} (h : s.cl.image.cells[i].inUse = false) : s.formCell i = s :=
  if_neg (Bool.eq_false_iff.1 h)

/-- A cell in use, its function and its latch said. -/
theorem formCell_of_used {s : State} {i : Ix8} (h : s.cl.image.cells[i].inUse = true) {fn : CellFn}
    (hf : s.cl.image.cells[i].fn = fn) {latch : Bool}
    (hl : (if fn = .latch then
        latchAfter s.ib.cells[i].latch (s.select s.cl.image.cells[i].a) (s.select s.cl.image.cells[i].b)
          (s.select s.cl.image.cells[i].c)
      else s.ib.cells[i].latch) = latch) :
    s.formCell i =
      { s with
        ib.cells := s.ib.cells.set i
          { out := cellValue fn latch (s.select s.cl.image.cells[i].a) (s.select s.cl.image.cells[i].b)
              (s.select s.cl.image.cells[i].c) ^^ s.cl.image.cells[i].inverted
            latch := latch } } := by
  unfold State.formCell
  dsimp only
  rw [if_pos h, hf, hl]

theorem cellsAct_iff (s : State) :
    s.cellsAct = true ↔ s.cl.station = .joining ∨ s.cl.station = .operating ∨ s.cl.station = .conflict := by
  unfold State.cellsAct
  cases s.cl.station <;> simp

/-- Settles O45. -/
theorem cellsFollow : Obligations.CellsFollow := by
  refine ⟨fun s i => ?_, fun s => ⟨fun h => if_pos ((cellsAct_iff s).2 h), fun h => if_neg ?_⟩⟩
  · intro cfg a b c x formed
    refine ⟨formCell_of_unused, fun hu hf => formCell_of_used hu hf rfl, fun hu hf => formCell_of_used hu hf rfl,
      fun hu hf => formCell_of_used hu hf rfl, fun hu hf => ⟨fun hb => ?_, fun hb ha hc => ?_, fun hb hac => ?_⟩⟩
    · exact formCell_of_used hu hf (if_pos hb)
    · refine formCell_of_used hu hf ((if_neg (Bool.eq_false_iff.1 hb)).trans (if_pos ?_))
      exact Bool.and_eq_true_iff.2 ⟨ha, hc⟩
    · exact formCell_of_used hu hf ((if_neg (Bool.eq_false_iff.1 hb)).trans (if_neg (Bool.eq_false_iff.1 hac)))
  · rw [cellsAct_iff]
    obtain h | h := h <;> rw [h] <;> decide

/-! ### The line-stop unit (R170 to R172) -/

theorem stopCauses_eq (s : State) :
    s.stopCauses =
      BitVec.ofNat 3 (s.cl.image.stop.s0.enabled.toNat + 2 * s.cl.image.stop.s1.enabled.toNat +
        4 * s.cl.image.stop.s2.enabled.toNat) := by
  unfold State.stopCauses
  dsimp only
  generalize s.cl.image.stop.s0.enabled = a
  generalize s.cl.image.stop.s1.enabled = b
  generalize s.cl.image.stop.s2.enabled = c
  revert a b c
  decide

theorem setStopped_same (s : State) :
    s.setStopped.cl = s.cl ∧ s.setStopped.ib = { s.ib with process := .stopped } := by
  rw [setStopped_eq]
  exact ⟨rfl, rfl⟩

/-- The stop output at a trigger (R172). -/
theorem driveStop_eq (s : State) :
    s.setStopped.driveStop =
      if s.cl.image.stop.stopWidth = 0 then { s.setStopped with ib.stopOut := .held, ib.widthTimer := none }
      else if s.ib.stopOut = .held then s.setStopped
      else { s.setStopped with ib.stopOut := .pulse, ib.widthTimer := some (10 * s.cl.image.stop.stopWidth) } := by
  obtain ⟨hcl, hib⟩ := setStopped_same s
  generalize s.setStopped = u at hcl hib ⊢
  have hout : u.ib.stopOut = s.ib.stopOut := by rw [hib]
  unfold State.driveStop
  dsimp only
  rw [hcl, hout]

theorem selectorMet_iff (s : State) (x : StopSelector) :
    s.selectorMet x = true ↔ (x.enabled = true → s.select x.signal = true) := by
  unfold State.selectorMet
  cases x.enabled <;> simp

theorem stopCondition_iff (s : State) :
    s.stopCondition = true ↔
      (s.cl.image.stop.s0.enabled = true ∨ s.cl.image.stop.s1.enabled = true ∨ s.cl.image.stop.s2.enabled = true) ∧
        ∀ x ∈ [s.cl.image.stop.s0, s.cl.image.stop.s1, s.cl.image.stop.s2], x.enabled = true → s.select x.signal = true := by
  unfold State.stopCondition
  simp only [Bool.and_eq_true, Bool.or_eq_true, selectorMet_iff, List.forall_mem_cons, List.not_mem_nil, false_implies,
    implies_true, and_true, or_assoc, and_assoc]

theorem trigger_eq (s : State) {driven : State} (hd : s.setStopped.driveStop = driven) {causes : BitVec 3}
    (hc : s.stopCauses = causes) :
    s.trigger = { driven.enqueue (.stop causes) with ib.stopUnit := .triggered, ib.triggerTimer := none } := by
  unfold State.trigger
  dsimp only
  rw [hd, hc]

/-- Settles O46. -/
theorem stopUnitActs : Obligations.StopUnitActs := by
  intro s c u driven causes triggered
  have htrigger : s.trigger = triggered := trigger_eq s (driveStop_eq s) (stopCauses_eq s)
  refine ⟨fun ha => ⟨fun hu hs ht => ?_, fun hu hs ht => ?_, fun hu hs => ?_, fun hu hs => ?_, fun hn => ?_⟩, fun hu => ?_,
    fun ho => exec_of (if_pos ho), stopCondition_iff s⟩
  · unfold State.stopFollows
    rw [if_pos ha, hu, hs]
    exact if_neg ht
  · unfold State.stopFollows
    rw [if_pos ha, hu, hs]
    exact (if_pos ht).trans htrigger
  · unfold State.stopFollows
    rw [if_pos ha, hu, hs]
  · unfold State.stopFollows
    rw [if_pos ha, hu, hs]
  · unfold State.stopFollows
    rw [if_pos ha]
    obtain ⟨hu, hs⟩ | ⟨hu, hs⟩ := hn
    · rw [hu, hs]
    · rw [hs]
      cases hunit : s.ib.stopUnit with
      | waiting => exact absurd hunit hu
      | timing => rfl
      | triggered => rfl
  · exact exec_of ((if_pos hu).trans htrigger)

/-! ### STOP and RESUME (R173, R175) -/

theorem stopAfterResume_eq (x : StopOutput) : stopAfterResume x = if x = .held then .off else x := by
  cases x <;> rfl

/-- No signal reads the process state or the stop output (R145). -/
theorem signal_resumed (s : State) (out : StopOutput) (x : Sig) :
    State.signal { s with ib.process := .run, ib.stopOut := out } x = s.signal x := by
  cases x <;> rfl

theorem stopCondition_resumed (s : State) (out : StopOutput) :
    State.stopCondition { s with ib.process := .run, ib.stopOut := out } = s.stopCondition := by
  unfold State.stopCondition State.selectorMet State.select
  simp only [signal_resumed]

/-- Nor does one read the acknowledge slot, or the count of frames in MUTE (R145). -/
theorem signal_acked (s : State) (x : Sig) : s.acked.signal x = s.signal x := by
  cases x <;> rfl

theorem stopCondition_acked (s : State) : s.acked.stopCondition = s.stopCondition := by
  unfold State.stopCondition State.selectorMet State.select
  simp only [signal_acked]
  rfl

/-- Settles O47. -/
theorem stopIsTakenAndResumed : Obligations.StopIsTakenAndResumed := by
  intro s source causes
  refine ⟨fun ht => exec_of_takes ht (fun t => t.stopArrives source causes) rfl,
    fun ho hs => exec_of_sends hs ho ownStopArrives rfl, fun h hc => ?_⟩
  intro last
  refine ⟨fun hs => exec_of_refusal hc (act := answerResume) rfl (if_pos ((stopCondition_acked s).trans hs)), fun hs => ?_⟩
  refine exec_of_answer hc (act := answerResume) rfl ((if_neg ?_).trans ?_) (.inl rfl)
  · rw [stopCondition_acked, hs]
    decide
  · unfold resumeData
    dsimp only
    rw [stopCondition_resumed, stopCondition_acked, hs, stopAfterResume_eq]
    rfl

end Sys2Proof.Proofs.Interlocks
end

section
/-! PROOF. The end of LOADING and the entry to OPERATING (R178 to R185). -/

namespace Sys2Proof.Proofs.StartUp

open Sys2Proof Sys2Proof.Machine Sys2Proof.Proofs.Step Sys2Proof.Proofs.Loops Sys2Proof.Proofs.Units

-- Proofs are elaborated in order: in the joined text the parallel ones would hold more threads at once than the memory limit allows.
set_option Elab.async false

/-! ### The image read (R179 to R184) -/

/-- UNCONFIGURED, but for its JOIN. -/
def unconfigured (u : State) (fault : FaultCode) (block : Nat) : State :=
  { u with
    cl.station := .unconfigured, cl.fault := fault, cl.offending := block, cl.readTimer := none
    cl.busTimer := none, cl.retryTimer := none, li.filter := u.cl.address, mb.alarm := .asserted }

/-- UNCONFIGURED is entered with a JOIN where the address is valid (R183). -/
theorem enterUnconfigured_of_address {u : State} (h : u.cl.address.isSome = true) (fault : FaultCode) (block : Nat) :
    u.enterUnconfigured fault block =
      (unconfigured u fault block).enqueue (.join (unconfigured u fault block).joinContent) := if_pos h

theorem reading_of {s : State} (hl : s.cl.station = .loading) (hr : s.cl.readTimer.isSome = true) : s.reading = true :=
  Bool.and_eq_true_iff.2 ⟨decide_eq_true hl, hr⟩

theorem onImageReadComplete_of_reading {s : State} (h : s.reading = true) {bytes : List Byte} {check : ImageVerdict}
    (hc : checkImage bytes = check) :
    (check = .bad → onImageReadComplete bytes s = s.enterUnconfigured .imageBad 0) ∧
      (∀ block, check = .invalid block → onImageReadComplete bytes s = s.enterUnconfigured .imageInvalid block) ∧
      ∀ img, check = .accepted img → onImageReadComplete bytes s = s.enterJoining img := by
  unfold onImageReadComplete
  rw [if_pos h, hc]
  exact ⟨by rintro rfl; rfl, by rintro block rfl; rfl, by rintro img rfl; rfl⟩

/-- A read that fails for the third time ends in LOAD_FAILED; what the read left of its timers is gone all the same (R179). -/
theorem failed_unconfigured (s : State) :
    unconfigured { s with cl.readFails := s.cl.readFails + 1, cl.readTimer := none, cl.busTimer := none } .loadFailed 0 =
      unconfigured { s with cl.readFails := s.cl.readFails + 1 } .loadFailed 0 := rfl

/-- Settles O50. -/
theorem imageIsRead : Obligations.ImageIsRead := by
  refine ⟨fun s bytes hl hr ha => ?_, fun s hl hr => exec_of (if_pos ⟨hl, hr⟩)⟩
  intro unconfigured'
  have hread := reading_of hl hr
  obtain ⟨hbad, hinvalid, haccepted⟩ := onImageReadComplete_of_reading hread (bytes := bytes) rfl
  refine ⟨fun h => exec_of ((hbad h).trans (enterUnconfigured_of_address ha _ _)),
    fun block h => exec_of ((hinvalid block h).trans (enterUnconfigured_of_address ha _ _)), fun img h => ?_,
    fun cause => ⟨fun hf => exec_of ?_, fun hf => exec_of ?_⟩⟩
  · intro loop t
    exact exec_of (haccepted img h)
  · exact (if_pos hread).trans (if_pos hf)
  · refine (if_pos hread).trans ((if_neg (show ¬ s.cl.readFails + 1 < 3 by omega)).trans ?_)
    refine (enterUnconfigured_of_address
      (u := { s with cl.readFails := s.cl.readFails + 1, cl.readTimer := none, cl.busTimer := none }) ha _ _).trans ?_
    rw [failed_unconfigured]
    rfl

/-! ### The entry to OPERATING (R185) -/

/-- Settles O52. -/
theorem operatingIsEntered : Obligations.OperatingIsEntered := by
  intro s raw0 raw1 reading hst hj img converted x l valid invalid fresh comp request sampled t
  refine exec_of ((if_pos ⟨hst, hj⟩).trans ?_)
  have hlu : l.sampled img.level x = _ := sampled_eq l img.level x (levelValid_eq x) rfl rfl rfl rfl
  show State.enqueueState (State.firstConversions _ _ _ _) = _
  have ht : State.firstConversions
      (State.startTimers { s with cl.station := .operating, cl.joinTimer := none, cl.started := true }) raw0.val raw1.val
      reading = t := by
    have hsampled : { l.sampled img.level x with levelTimer := some 100 } = sampled := by rw [hlu]
    unfold State.firstConversions
    rw [convertBoth_eq, converted_eq, converted_eq]
    show (if img.level.inUse = true then _ else _) = State.sample _ (if img.level.inUse = true then _ else _)
    cases img.level.inUse
    · rfl
    · simp only [if_true]
      rw [← hsampled]
      rfl
  rw [ht]
  rfl

end Sys2Proof.Proofs.StartUp
end

section
/-! PROOF. The conditions and the pins that the statements name (R52, R59, R61, R88, R94, R98, R106, R112 to R117, R126, R134,
R145 to R148, R153, R156, R160, R161, R169, R172, R182). -/

namespace Sys2Proof.Proofs.Conditions

open Sys2Proof Sys2Proof.Machine Sys2Proof.Proofs.Step Sys2Proof.Proofs.Alarm Sys2Proof.Proofs.ChannelActs

-- Proofs are elaborated in order: in the joined text the parallel ones would hold more threads at once than the memory limit allows.
set_option Elab.async false
open Sys2Proof.Proofs.Sampling Sys2Proof.Proofs.Interlocks

/-! ### Channels, loops and points -/

theorem running_eq (c : Channel) :
    c.running = decide (c.st = .delay ∨ c.st = .on ∨ c.st = .off ∨ c.st = .halting) := by
  unfold Channel.running
  cases c.st <;> rfl

theorem raised_eq (p : Point) : p.raised = decide (p.st = .raised ∨ p.st = .raisedAcked) := by
  unfold Point.raised
  cases p.st <;> rfl

theorem ganged_eq (s : State) (i : LoopIx) :
    s.ganged i = true ↔ i = 1 ∧ s.cl.image.loops[(1 : LoopIx)].ganged = true := by
  rw [State.ganged, Bool.and_eq_true, decide_eq_true_eq]

theorem tcOpenOf_eq (s : State) (i : LoopIx) :
    s.tcOpenOf i =
      if i = 1 ∧ s.cl.image.loops[(1 : LoopIx)].ganged = true then s.hl.loops[(0 : LoopIx)].tcOpen
      else s.hl.loops[i].tcOpen := by
  unfold State.tcOpenOf
  simp only [ganged_eq]

/-! ### Feeding, forcing off, safe mode -/

theorem ownedChanOf_isSome (img : Image) :
    (ownedChanOf img).isSome = true ↔ ∃ k : Chan, img.chans[k].levelOwned = true := by
  unfold ownedChanOf
  simp only [List.find?_isSome, mem_allChans, true_and]

theorem feedAllowed_iff (s : State) :
    s.feedAllowed = true ↔
      s.cl.image.level.inUse = true ∧ (∃ k : Chan, s.cl.image.chans[k].levelOwned = true) ∧ s.cl.station = .operating ∧
        s.ib.process = .run ∧ s.lu.request = true ∧ s.lu.inhibit = false ∧ s.lu.feedTimeout = false ∧
        s.lu.invalid = false := by
  unfold State.feedAllowed
  simp only [Bool.and_eq_true, ownedChanOf_isSome, State.operating_iff, decide_eq_true_eq, Bool.not_eq_true', and_assoc]

theorem forcedOff_iff (s : State) (i : LoopIx) :
    s.forcedOff i = true ↔
      s.hl.loops[i].enabled = false ∨ s.select s.cl.image.loops[i].permit = false ∨ s.tcOpenOf i = true := by
  unfold State.forcedOff State.loopPermit
  simp only [Bool.or_eq_true, Bool.not_eq_true', or_assoc]

theorem ownAbsent_iff (s : State) (i : LoopIx) :
    s.ownAbsent i = true ↔ s.cl.image.loops[i].inUse = true ∧ s.hl.loops[i].enabled = true ∧ s.ownEntry i = none := by
  unfold State.ownAbsent
  simp only [Bool.and_eq_true, Option.isNone_iff_eq_none, and_assoc]

theorem safeMode_operating {s : State} (h : s.cl.station = .operating) :
    s.safeMode = true ↔
      s.bu.startTimer.isSome = true ∨ s.bu.tableFull = true ∨
        ∃ i : LoopIx, s.cl.image.loops[i].inUse = true ∧ s.hl.loops[i].enabled = true ∧ s.ownEntry i = none := by
  have hex : (∃ i : LoopIx, s.cl.image.loops[i].inUse = true ∧ s.hl.loops[i].enabled = true ∧ s.ownEntry i = none) ↔
      s.ownAbsent 0 = true ∨ s.ownAbsent 1 = true := by
    rw [ownAbsent_iff, ownAbsent_iff]
    exact Fin.exists_fin_two
  unfold State.safeMode
  rw [h, hex]
  simp only [Bool.or_eq_true, or_assoc]

theorem safeMode_conflict {s : State} (h : s.cl.station = .conflict) : s.safeMode = true := by
  unfold State.safeMode
  rw [h]

theorem safeMode_before {s : State} (ho : s.cl.station ≠ .operating) (hc : s.cl.station ≠ .conflict) : s.safeMode = false := by
  unfold State.safeMode
  cases h : s.cl.station with
  | operating => exact absurd h ho
  | conflict => exact absurd h hc
  | _ => rfl

/-- The own entry of a loop is one of its key (R106). -/
theorem ownEntry_some {s : State} {i : LoopIx} {e : DemandEntry} (h : s.ownEntry i = some e) :
    e ∈ s.bu.table ∧ e.station = s.ownAddr.toNat ∧ e.loop = i := by
  have hp := List.find?_some h
  simp only [Bool.and_eq_true, decide_eq_true_eq] at hp
  exact ⟨List.mem_of_find?_eq_some h, hp⟩

theorem ownEntry_none (s : State) (i : LoopIx) :
    s.ownEntry i = none ↔ ∀ e ∈ s.bu.table, ¬(e.station = s.ownAddr.toNat ∧ e.loop = i) := by
  unfold State.ownEntry
  simp only [List.find?_eq_none, Bool.and_eq_true, decide_eq_true_eq]

/-! ### The watch slots -/

theorem slotRaised_iff (s : State) (i : Ix8) :
    s.slotRaised i = true ↔
      s.cl.image.slots[i].inUse = true ∧
        ∃ e : PeerEntry, s.peer (BitVec.ofNat 5 s.cl.image.slots[i].station) = some e ∧ e.silent = false ∧
          e.raised.getLsbD s.cl.image.slots[i].point.val = true := by
  unfold State.slotRaised
  dsimp only
  cases s.peer (BitVec.ofNat 5 s.cl.image.slots[i].station) with
  | none => simp
  | some e => simp

theorem slotSilent_iff (s : State) (i : Ix8) :
    s.slotSilent i = true ↔
      s.cl.image.slots[i].inUse = true ∧ s.cl.image.station.expected.getLsbD s.cl.image.slots[i].station = true ∧
        s.mb.graceExpired = true ∧
        ∀ e : PeerEntry, s.peer (BitVec.ofNat 5 s.cl.image.slots[i].station) = some e → e.silent = true := by
  unfold State.slotSilent
  dsimp only
  cases s.peer (BitVec.ofNat 5 s.cl.image.slots[i].station) with
  | none => simp [and_assoc]
  | some e => simp [and_assoc]

/-! ### Frames' contents -/

theorem setOf_all8 (f : Ix8 → Bool) (i : Ix8) : (Machine.setOf 8 all8 f).getLsbD i.val = f i := by
  rw [setOf_getLsbD, decide_eq_true (mem_all8 i), Bool.true_and]

theorem setOf_allChans (f : Chan → Bool) (k : Chan) : (Machine.setOf 4 allChans f).getLsbD k.val = f k := by
  rw [setOf_getLsbD, decide_eq_true (mem_allChans k), Bool.true_and]

theorem roles_eq (a b c d e f g : Bool) :
    (flagByte [a, b, c, d, e, f, g]).setWidth 7 =
      BitVec.ofNat 7 (a.toNat + 2 * b.toNat + 4 * c.toNat + 8 * d.toNat + 16 * e.toNat + 32 * f.toNat + 64 * g.toNat) := by
  revert a b c d e f g
  decide

theorem expectedSize_eq (expected : BitVec 32) :
    expectedSize expected = (List.range' 1 30).countP fun n => expected.getLsbD n := by
  have hrange : List.range 31 = 0 :: List.range' 1 30 := by decide
  unfold expectedSize
  rw [hrange, List.countP_cons_of_neg (by simp)]
  refine List.countP_congr fun n hn => ?_
  have h1 : 1 ≤ n := (List.mem_range'_1.1 hn).1
  simp [h1]

/-! ### Pins -/

theorem cellsAct_eq (s : State) :
    s.cellsAct = decide (s.cl.station = .joining ∨ s.cl.station = .operating ∨ s.cl.station = .conflict) :=
  Bool.eq_iff_iff.2 ((cellsAct_iff s).trans decide_eq_true_iff.symm)

theorem chout_eq (s : State) (k : Chan) :
    s.chout k = (s.cellsAct && (decide (s.ac[k].st = .on ∨ s.ac[k].st = .halting) ^^ s.cl.image.chans[k].inverted)) := by
  unfold State.chout
  rw [Bool.decide_or]
  cases s.cellsAct <;> rfl

theorem position_eq (s : State) (i : LoopIx) :
    s.position i =
      s.hl.loops[if i = 1 ∧ s.cl.image.loops[(1 : LoopIx)].ganged = true then (0 : LoopIx) else i].pos := by
  unfold State.position
  simp only [ganged_eq]
  split <;> rfl

theorem hout_iff (s : State) (i : LoopIx) :
    s.hout i = true ↔
      s.cl.image.loops[i].inUse = true ∧ s.active = true ∧ s.hl.mainsLost = false ∧ s.hl.begun = true ∧
        s.position i < s.hl.loops[i].half := by
  unfold State.hout State.loopRuns
  simp only [Bool.and_eq_true, Bool.not_eq_true', decide_eq_true_eq, and_assoc]

theorem goutPin_eq (s : State) (c : GoutCfg) :
    (c.cell = none → s.goutPin c = false) ∧
      ∀ i : Ix8, c.cell = some i → s.goutPin c = (s.cellsAct && (s.ib.cells[i].out ^^ c.inverted)) := by
  unfold State.goutPin
  exact ⟨fun h => by rw [h], fun i h => by rw [h]⟩

theorem stopPin_eq (s : State) : s.stopPin = decide (s.ib.stopOut = .pulse ∨ s.ib.stopOut = .held) := by
  unfold State.stopPin
  cases s.ib.stopOut <;> rfl

theorem pointUpdate_none {c : PointCfg} (h : c.isSignal = false ∨ c.onSource = false) : pointUpdate c = none := by
  refine if_neg ?_
  rw [Bool.and_eq_true]
  rintro ⟨hs, ho⟩
  exact h.elim (fun h => absurd (h.symm.trans hs) (by decide)) fun h => absurd (h.symm.trans ho) (by decide)

theorem pointUpdate_source {c : PointCfg} (hs : c.isSignal = true) (ho : c.onSource = true) :
    pointUpdate c = updateOf c.signal.sig := if_pos (Bool.and_eq_true_iff.2 ⟨hs, ho⟩)

/-- Settles O53: a part of the catalogue, or a pin, at a time. -/
theorem conditionsAndOutputs : Obligations.ConditionsAndOutputs := by
  intro s img tcOpen raised unacked runs sent joined follows
  refine ⟨⟨fun _ => rfl, fun _ => rfl, fun i => ⟨raised_eq _, rfl, rfl, rfl⟩, fun _ => rfl, fun _ => rfl,
      fun k => ⟨rfl, rfl, rfl, running_eq _, rfl, rfl⟩, fun i => ⟨rfl, rfl, rfl, rfl, rfl, tcOpenOf_eq s i⟩, rfl, rfl, ?_, ?_,
      rfl, rfl, rfl, rfl, rfl, rfl, rfl, rfl, rfl, rfl, rfl, rfl, rfl⟩,
    ⟨feedAllowed_iff s, fun i => ?_, safeMode_operating, safeMode_conflict, safeMode_before, fun _ _ => ownEntry_some,
      ownEntry_none s, rfl⟩,
    fun i => ⟨slotRaised_iff s i, slotSilent_iff s i⟩, fun c => ⟨pointUpdate_none, fun hs ho => ?_⟩,
    ⟨fun i => ⟨(setOf_all8 _ i).trans (raised_eq _), (setOf_all8 _ i).trans (alarmed_eq _)⟩,
      fun k => ⟨setOf_allChans _ k, (setOf_allChans _ k).trans (running_eq _)⟩, ?_⟩,
    ⟨fun h => if_pos h, fun h => (if_neg h).trans ?_⟩,
    ⟨fun k => ?_, fun i => ?_, rfl, rfl, stopPin_eq s, ?_⟩⟩
  · exact List.any_eq_true
  · exact List.any_eq_true.trans (by simp only [decide_eq_true_eq])
  · rw [forcedOff_iff, tcOpenOf_eq]
  · rw [pointUpdate_source hs ho]
    unfold updateOf
    cases c.signal.sig <;> rfl
  · show s.stateContent = _
    unfold State.stateContent
    rw [tcOpenOf_eq, tcOpenOf_eq]
    rfl
  · dsimp only
    rw [roles_eq, expectedSize_eq]
  · rw [chout_eq, cellsAct_eq]
  · rw [hout_iff, position_eq]
  · have hpin : ∀ c : GoutCfg, (c.cell = none → s.goutPin c = false) ∧
        ∀ i : Ix8, c.cell = some i → s.goutPin c = (follows && (s.ib.cells[i].out ^^ c.inverted)) := by
      intro c
      have h := goutPin_eq s c
      rw [cellsAct_eq] at h
      exact h
    intro x hx
    simp only [List.mem_cons, List.not_mem_nil, or_false] at hx
    obtain rfl | rfl := hx
    · exact hpin img.station.gout0
    · exact hpin img.station.gout1

end Sys2Proof.Proofs.Conditions
end

section
/-! PROOF. The frames of other stations: what a row does once its frame has been taken (R13 to R17), while the line interface
is in MUTE (R7), and in CONFLICT (R18, R19). -/

namespace Sys2Proof.Proofs.Heard

open Sys2Proof Sys2Proof.Machine Sys2Proof.Proofs.Step Sys2Proof.Proofs.Queueing Sys2Proof.Proofs.Line

-- Proofs are elaborated in order: in the joined text the parallel ones would hold more threads at once than the memory limit allows.
set_option Elab.async false
open Sys2Proof.Proofs.ChannelActs Sys2Proof.Proofs.Commands Sys2Proof.Proofs.ChannelReaders Sys2Proof.Proofs.Event

/-! ### In MUTE nothing is queued -/

/-- In MUTE the line interface is left as it is. -/
def LineHeld (s t : State) : Prop := s.li.line = .mute → t.li = s.li

theorem LineHeld.refl (s : State) : LineHeld s s := fun _ => rfl

theorem LineHeld.of_same {s t : State} (h : t.li = s.li) : LineHeld s t := fun _ => h

theorem LineHeld.trans {s t u : State} (h : LineHeld s t) (k : LineHeld t u) : LineHeld s u := fun hm =>
  (k ((h hm).symm ▸ hm)).trans (h hm)

theorem enqueue_lineHeld (s : State) (f : Frame) : LineHeld s (s.enqueue f) := fun hm => by
  rw [enqueue_of_dropped (not_accepts (.inl hm))]

theorem enqueueFor_lineHeld (s : State) (f : Frame) (restart : Bool) : LineHeld s (s.enqueueFor f restart) := fun hm => by
  rw [enqueueFor_of_dropped (not_accepts (.inl hm))]

theorem queueAlarms_lineHeld (s : State) (before : Vector Point 8) : LineHeld s (s.queueAlarms before) := by
  refine foldl_within LineHeld LineHeld.refl LineHeld.trans _ (fun t i => ?_) all8 s
  have hq : ∀ raised, LineHeld t (t.queueAlarm i raised) := fun raised => by
    unfold State.queueAlarm
    dsimp only
    split
    · exact (enqueue_lineHeld _ _).trans (enqueue_lineHeld _ _)
    · exact enqueue_lineHeld _ _
  split
  · exact .refl t
  · exact hq _

theorem table_line {s t : State} (h : ByTable s t) : t.li = s.li := by
  rw [ByTable] at h
  rw [h]

theorem channels_line {s t : State} (h : ByChannels s t) : t.li = s.li := by
  rw [ByChannels] at h
  rw [h]

/-! ### What the blocks do leaves the line interface alone -/

theorem foldl_line {α : Type} {act : State → α → State × ResultCode} (h : ∀ t k, (act t k).1.li = t.li) (l : List α)
    (x : State × ResultCode) :
    (l.foldl (fun x k => ((act x.1 k).1, worse x.2 (act x.1 k).2)) x).1.li = x.1.li := by
  induction l generalizing x with
  | nil => rfl
  | cons k l ih => exact (ih _).trans (h _ _)

theorem onChans_line {act : State → Chan → State × ResultCode} (h : ∀ t k, (act t k).1.li = t.li) (set : BitVec 8)
    (s : State) : (onChans set act s).state.li = s.li := by
  unfold onChans
  split
  · rfl
  · exact foldl_line h _ _

theorem onLoops_line {act : State → LoopIx → State × ResultCode} (h : ∀ t k, (act t k).1.li = t.li) (set : BitVec 8)
    (s : State) : (onLoops set act s).state.li = s.li := by
  unfold onLoops
  split
  · rfl
  · exact foldl_line h _ _

theorem startFromLine_line (p s : State) (k : Chan) : (startFromLine p s k).1.li = s.li := by
  unfold startFromLine
  split
  · rfl
  · exact channels_line (startChan_within s _ k)

theorem haltFromLine_line (s : State) (k : Chan) : (haltFromLine s k).1.li = s.li := by
  have h := channels_line (haltChan_within s k)
  unfold haltFromLine
  dsimp only
  split
  · exact h
  · exact h

theorem continueFromLine_line (p s : State) (k : Chan) : (continueFromLine p s k).1.li = s.li := by
  unfold continueFromLine
  split
  · rfl
  · split
    · rfl
    · split
      · rfl
      · exact channels_line (continueHeld_within s _ k _)

theorem enableLoop_line (s : State) (i : LoopIx) : (enableLoop s i).1.li = s.li := by
  unfold enableLoop
  split <;> rfl

theorem disableLoop_line (s : State) (i : LoopIx) : (disableLoop s i).1.li = s.li := by
  unfold disableLoop
  split
  · rfl
  · split <;> rfl

theorem answerLoopSetpoint_line (loop : Byte) (value : BitVec 16) (s : State) :
    (answerLoopSetpoint loop value s).state.li = s.li := by
  unfold answerLoopSetpoint setLoopPoint
  dsimp only
  split
  · split
    · rfl
    · split <;> rfl
  · rfl

theorem demandArrives_line (s : State) (source : Addr) (c : DemandContent) : (s.demandArrives source c).li = s.li := by
  unfold State.demandArrives State.demandApplies
  dsimp only
  split
  · split
    · rfl
    · split <;> rfl
  · rfl

theorem joinArrives_line (s : State) (source : Addr) : (s.joinArrives source).li = s.li := by
  unfold State.joinArrives
  split <;> rfl

theorem stopArrives_line (s : State) (source : Addr) (causes : BitVec 3) : (s.stopArrives source causes).li = s.li := by
  unfold State.stopArrives
  rw [setStopped_eq]

theorem ackLine_line (s : State) (took : Bool) : (s.ackLine took).li = s.li := by
  unfold State.ackLine
  split
  · rfl
  · split <;> rfl

theorem answerAlarmAck_lineHeld (points : BitVec 8) (s : State) : LineHeld s (answerAlarmAck points s).state :=
  (LineHeld.of_same (ackLine_line { s with mb.points := ackPoints s points } _)).trans (queueAlarms_lineHeld _ _)

theorem answerTotalsClear_line (counters : BitVec 8) (s : State) : (answerTotalsClear counters s).state.li = s.li := by
  unfold answerTotalsClear
  split <;> rfl

theorem answerResume_line (s : State) : (answerResume s).state.li = s.li := by
  unfold answerResume
  split <;> rfl

theorem answerLevelFeedReset_line (s : State) : (answerLevelFeedReset s).state.li = s.li := by
  unfold answerLevelFeedReset
  split <;> rfl

theorem acceptRestart_lineHeld (s : State) (panel : Addr) : LineHeld s (s.acceptRestart panel) := by
  unfold State.acceptRestart
  dsimp only
  split
  · exact enqueue_lineHeld _ _
  · exact (enqueueFor_lineHeld s _ true).trans (.of_same rfl)

/-! ### Rows of a frame heard -/

/-- What a row for a frame of another station does once the frame has been taken. -/
structure ActsOnceTaken (c : Instr) (source : Addr) (act : State → State) : Prop where
  prior : ∀ s : State, prior c s = s
  effect : ∀ s : State, s.receiving = true → s.heardFrom c = some source → effect c s = act (s.takeHeard source)
  held : ∀ t : State, LineHeld t (act t)
  conflict : ∀ t : State, t.cl.station = .conflict → (∀ h, c ≠ .restart h) → act t = t
  noBlock : reachesNoBlock c = true → ∀ t : State, act t = t

/-- A frame of a kind other than COMMAND that the filter lets through. -/
def delivered (k : Kind) (source : Addr) (act : State → State) (t : State) : State :=
  if t.delivers k && sourceValid source then act t else t

theorem takeFrom_eq {s : State} (hr : s.receiving = true) (k : Kind) (source : Addr) (act : State → State) :
    s.takeFrom k source act = delivered k source act (s.takeHeard source) := if_pos hr

theorem delivered_lineHeld {k : Kind} {source : Addr} {act : State → State} {t : State} (h : LineHeld t (act t)) :
    LineHeld t (delivered k source act t) := by
  unfold delivered
  split
  · exact h
  · exact .refl t

theorem delivered_of_conflict {t : State} (h : t.cl.station = .conflict) (k : Kind) (source : Addr) (act : State → State) :
    delivered k source act t = t := by
  have hd : t.delivers k = false := delivers_of_not_operating (by rw [h]; decide) fun hj => nomatch h.symm.trans hj
  rw [delivered, hd, Bool.false_and]
  exact if_neg Bool.false_ne_true

/-- A row of a kind other than COMMAND and REPLY. -/
theorem actsOnceTaken_frame {c : Instr} {k : Kind} {source : Addr} {act : State → State}
    (hp : ∀ s, prior c s = s) (he : ∀ s : State, Machine.effect c s = s.takeFrom k source act)
    (hn : reachesNoBlock c = false) (hl : ∀ t, LineHeld t (act t)) :
    ActsOnceTaken c source (delivered k source act) where
  prior := hp
  effect s hr _ := (he s).trans (takeFrom_eq hr k source act)
  held t := delivered_lineHeld (hl t)
  conflict t ht _ := delivered_of_conflict ht k source act
  noBlock h := absurd h (by rw [hn]; decide)

/-- A COMMAND once its frame has been taken. -/
def commanded (h : CmdHeader) (code : Byte) (act : State → Answer) (t : State) : State :=
  match t.handling h with
  | .act reply => if reply then (act t).state.enqueue (replyFrame h.source code (act t).result (act t).data) else (act t).state
  | .answer r => t.enqueue (replyFrame h.source code r [])
  | .nothing => t

theorem command_eq {s : State} {h : CmdHeader} (hr : s.receiving = true) (code : Byte) (act : State → Answer) :
    s.command h code act = commanded h code act (s.takeHeard h.source) := if_pos hr

theorem commanded_lineHeld {h : CmdHeader} {code : Byte} {act : State → Answer} {t : State} (ha : LineHeld t (act t).state) :
    LineHeld t (commanded h code act t) := by
  unfold commanded
  split
  · split
    · exact ha.trans (enqueue_lineHeld _ _)
    · exact ha
  · exact enqueue_lineHeld _ _
  · exact .refl t

theorem handling_of_conflict {t : State} (ht : t.cl.station = .conflict) (h : CmdHeader) : t.handling h = .nothing := by
  have ho : t.operating = false := by rw [State.operating, ht]; rfl
  unfold State.handling
  rw [ho, ht]
  split
  · rfl
  · split
    · rfl
    · split <;> rfl

theorem actsOnceTaken_command {c : Instr} {h : CmdHeader} {code : Byte} {act : State → Answer}
    (hc : ownerCommand c = some (h, code)) (he : ∀ s : State, Machine.effect c s = s.command h code act)
    (hl : ∀ t, LineHeld t (act t).state) : ActsOnceTaken c h.source (commanded h code act) where
  prior s := (ownerCommand_effect hc).elim fun _ hs => (hs s).2
  effect s hr _ := (he s).trans (command_eq hr code act)
  held t := commanded_lineHeld (hl t)
  conflict t ht _ := by rw [commanded, handling_of_conflict ht]
  noBlock hn := by
    cases c <;> simp only [ownerCommand, reduceCtorEq] at hc
    all_goals exact absurd hn Bool.false_ne_true

/-- A malformed COMMAND once its frame has been taken (R15). -/
def malformed (source : Addr) (payload : List Byte) (t : State) : State :=
  if sourceValid source && t.addressed { source := source, dest := payload.getD 0 0 } && decide (t.cl.station ≠ .conflict) then
    t.enqueue (replyFrame source (answeredCode payload) .badOperand [])
  else t

/-- RESTART once its frame has been taken (R177). -/
def restarted (h : CmdHeader) (t : State) : State :=
  if sourceValid h.source && decide (h.dest ≠ broadcast) && t.addressed h then t.acceptRestart h.source else t

theorem leaveMute_station (s : State) : s.leaveMute.cl.station = s.cl.station := by
  have hq := enqueueJoin_within ({ s with li.line := .active, li.discards := 0 } : State)
  rw [ByQueue] at hq
  have h := congrArg (fun t : State => t.cl.station) hq
  exact h

theorem settle_station (n : Nat) (s : State) : (settle n s).cl.station = s.cl.station := by
  have hs := settle_within n s
  rw [ByReaders] at hs
  have h := congrArg (fun t : State => t.cl.station) hs
  exact h

theorem countGood_station (s : State) (source : Addr) : (s.countGood source).cl.station = s.cl.station := by
  unfold State.countGood
  dsimp only
  split
  · split
    · exact (settle_station _ _).trans (leaveMute_station _)
    · rfl
  · rfl

theorem takeHeard_station (s : State) (source : Addr) :
    (s.takeHeard source).cl.station = s.cl.station ∨
      ((s.cl.station = .joining ∨ s.cl.station = .operating) ∧ (s.takeHeard source).cl.station = .conflict) := by
  unfold State.takeHeard
  dsimp only
  rw [countGood_station]
  split
  · rename_i hc
    exact .inr ⟨conflicts_station hc, rfl⟩
  · exact .inl rfl

theorem takeHeard_deliversRaw {s : State} {source : Addr} {f : RawFrame} (h : s.deliversRaw source f = false) :
    (s.takeHeard source).deliversRaw source f = false := by
  unfold State.deliversRaw State.commandsDelivered at h ⊢
  obtain hs | ⟨hs, hc⟩ := takeHeard_station s source
  · rw [hs]
    exact h
  · rw [hc]
    rw [Bool.and_eq_false_iff] at h ⊢
    refine h.imp id fun h => ?_
    split
    · rename_i h5
      rw [if_pos h5] at h
      obtain hs | hs := hs <;> rw [hs] at h <;> exact h
    · exact Bool.and_false _

/-- Every row of a frame heard acts once the frame has been taken. -/
theorem actsOnceTaken_of_heardFrom {s : State} {c : Instr} {source : Addr} (h : s.heardFrom c = some source) :
    ∃ act, ActsOnceTaken c source act := by
  have howner : ∀ {x : CmdHeader} {code : Byte} (act : State → Answer), ownerCommand c = some (x, code) →
      (∀ s : State, effect c s = s.command x code act) → (∀ t, LineHeld t (act t).state) →
      s.heardFrom c = some x.source → ∃ act, ActsOnceTaken c source act := fun _ hc he hl hx => by
    obtain rfl := Option.some.inj (hx.symm.trans h)
    exact ⟨_, actsOnceTaken_command hc he hl⟩
  cases c with
  | frameTakenUndelivered rx =>
    cases rx with
    | own => cases h
    | heard a f =>
      have hs : source = a := by
        change (if s.deliversRaw a f then none else some a) = some source at h
        split at h
        · cases h
        · exact (Option.some.inj h).symm
      subst hs
      refine ⟨id, fun _ => rfl, fun t hr ht => ?_, fun t => .refl t, fun _ _ _ => rfl, fun _ _ => rfl⟩
      change (if t.deliversRaw source f then none else some source) = some source at ht
      have hraw : t.deliversRaw source f = false := by
        cases hd : t.deliversRaw source f
        · rfl
        · rw [hd] at ht; cases ht
      exact if_pos (by rw [hr, takeHeard_deliversRaw hraw]; rfl)
  | replyTaken rx =>
    cases rx with
    | own => cases h
    | heard a f =>
      cases h
      exact ⟨id, fun _ => rfl, fun t hr _ => if_pos hr, fun t => .refl t, fun _ _ _ => rfl, fun _ _ => rfl⟩
  | commandNotAddressed x =>
    have hfrom : ∀ t : State, t.heardFrom (.commandNotAddressed x) = some source →
        (t.addressed x || decide (x.dest = broadcast)) = false ∧ x.source = source := fun t ht => by
      change (if t.addressed x || decide (x.dest = broadcast) then none else some x.source) = some source at ht
      split at ht
      · cases ht
      · rename_i hn
        exact ⟨Bool.eq_false_iff.2 hn, Option.some.inj ht⟩
    obtain ⟨-, rfl⟩ := hfrom s h
    refine ⟨id, fun _ => rfl, fun t hr ht => ?_, fun t => .refl t, fun _ _ _ => rfl, fun _ _ => rfl⟩
    exact if_pos (by rw [hr, (hfrom t ht).1]; rfl)
  | unknownCommand a payload =>
    have hfrom : ∀ t : State, t.heardFrom (.unknownCommand a payload) = some source →
        malformedCommand payload = true ∧ a = source := fun t ht => by
      change (if malformedCommand payload then some a else none) = some source at ht
      split at ht
      · rename_i hm
        exact ⟨hm, Option.some.inj ht⟩
      · cases ht
    obtain ⟨hm, rfl⟩ := hfrom s h
    refine ⟨malformed a payload, fun _ => rfl, fun t hr _ => if_pos (by rw [hr, hm]; rfl), fun t => ?_, fun t ht _ => ?_,
      fun hn => absurd hn Bool.false_ne_true⟩
    · unfold malformed
      split
      · exact enqueue_lineHeld _ _
      · exact .refl t
    · rw [malformed, ht]
      exact if_neg (by simp)
  | restart x =>
    cases h
    refine ⟨restarted x, fun _ => rfl, fun t hr _ => if_pos hr, fun t => ?_, fun t _ hn => absurd rfl (hn x),
      fun hn => absurd hn Bool.false_ne_true⟩
    unfold restarted
    split
    · exact acceptRestart_lineHeld _ _
    · exact .refl t
  | entryTaken rx =>
    cases rx with
    | own => cases h
    | heard a x =>
      cases h
      refine ⟨_, actsOnceTaken_frame (act := fun t => t.entryArrives x) (fun _ => rfl) (fun _ => rfl) rfl
        fun t => ?_⟩
      exact .of_same (table_line (entryArrives_within t x))
  | peerSightLeadTaken a id position measured =>
    cases h
    refine ⟨_, actsOnceTaken_frame (act := fun t => t.peerLead id position.toNat) (fun _ => rfl) (fun _ => rfl) rfl
        fun t => ?_⟩
    exact .of_same (table_line (peerLead_within t id _))
  | peerSightTrailTaken a id position measured =>
    cases h
    refine ⟨_, actsOnceTaken_frame (act := fun t => t.peerTrail id position.toNat measured.toNat)
        (fun _ => rfl) (fun _ => rfl) rfl fun t => ?_⟩
    exact .of_same (table_line (peerTrail_within t id _ _))
  | speedTaken rx =>
    cases rx with
    | own => cases h
    | heard a v =>
      cases h
      refine ⟨_, actsOnceTaken_frame (act := fun t => t.speedArrives source v) (fun _ => rfl) (fun _ => rfl) rfl
        fun t => ?_⟩
      exact .of_same rfl
  | demandTaken rx =>
    cases rx with
    | own => cases h
    | heard a x =>
      cases h
      refine ⟨_, actsOnceTaken_frame (act := fun t => t.demandArrives source x) (fun _ => rfl) (fun _ => rfl) rfl
        fun t => ?_⟩
      exact .of_same (demandArrives_line t source x)
  | stateTaken rx =>
    cases rx with
    | own => cases h
    | heard a x =>
      cases h
      refine ⟨_, actsOnceTaken_frame (act := fun t => t.stateArrives source x) (fun _ => rfl) (fun _ => rfl) rfl
        fun t => ?_⟩
      exact .of_same rfl
  | joinTaken rx =>
    cases rx with
    | own => cases h
    | heard a x =>
      cases h
      refine ⟨_, actsOnceTaken_frame (act := fun t => t.joinArrives source) (fun _ => rfl) (fun _ => rfl) rfl
        fun t => ?_⟩
      exact .of_same (joinArrives_line t source)
  | alarmTaken rx =>
    cases rx with
    | own => cases h
    | heard a x =>
      cases h
      refine ⟨_, actsOnceTaken_frame (act := fun t => t.alarmArrives source x) (fun _ => rfl) (fun _ => rfl) rfl
        fun t => ?_⟩
      exact .of_same rfl
  | stopTaken rx =>
    cases rx with
    | own => cases h
    | heard a causes =>
      cases h
      refine ⟨_, actsOnceTaken_frame (act := fun t => t.stopArrives source causes) (fun _ => rfl) (fun _ => rfl) rfl
        fun t => ?_⟩
      exact .of_same (stopArrives_line t source causes)
  | transitRead x index part =>
    exact howner (answerTransitRead index part) rfl (fun _ => rfl) (fun t => .of_same (by rw [answerTransitRead_state])) rfl
  | totalsRead x counter =>
    exact howner (answerTotalsRead counter) rfl (fun _ => rfl)
      (fun t => .of_same (by rw [answerTotalsRead_state])) rfl
  | totalsClear x counters =>
    exact howner (answerTotalsClear counters) rfl (fun _ => rfl)
      (fun t => .of_same (answerTotalsClear_line counters t)) rfl
  | chStart x chans =>
    exact howner (answerChStart chans) rfl (fun _ => rfl)
      (fun t => .of_same (onChans_line (startFromLine_line t) chans t)) rfl
  | chHalt x chans =>
    exact howner (answerChHalt chans) rfl (fun _ => rfl)
      (fun t => .of_same (onChans_line haltFromLine_line chans t)) rfl
  | chHaltSave x chans =>
    exact howner (answerChHaltSave chans) rfl (fun _ => rfl)
      (fun t => .of_same (onChans_line (fun u k => channels_line (haltSave_within u k)) chans t)) rfl
  | chContinue x chans =>
    exact howner (answerChContinue chans) rfl (fun _ => rfl)
      (fun t => .of_same (onChans_line (continueFromLine_line t) chans t)) rfl
  | chQuery x chan => exact howner (answerChQuery chan) rfl (fun _ => rfl) (fun t => .of_same (by rw [answerChQuery_state])) rfl
  | loopSetpoint x loop value =>
    exact howner (answerLoopSetpoint loop value) rfl (fun _ => rfl)
      (fun t => .of_same (answerLoopSetpoint_line loop value t)) rfl
  | loopEnable x loops =>
    exact howner (answerLoopEnable loops) rfl (fun _ => rfl)
      (fun t => .of_same (onLoops_line enableLoop_line loops t)) rfl
  | loopDisable x loops =>
    exact howner (answerLoopDisable loops) rfl (fun _ => rfl)
      (fun t => .of_same (onLoops_line disableLoop_line loops t)) rfl
  | levelFeedReset x => exact howner answerLevelFeedReset rfl (fun _ => rfl) (fun t => .of_same (answerLevelFeedReset_line t)) rfl
  | alarmAck x points => exact howner (answerAlarmAck points) rfl (fun _ => rfl) (answerAlarmAck_lineHeld points) rfl
  | permitGrant x grant withdraw => exact howner (changePermits grant withdraw) rfl (fun _ => rfl) (fun t => .of_same rfl) rfl
  | permitWithdraw x withdraw => exact howner (changePermits 0 withdraw) rfl (fun _ => rfl) (fun t => .of_same rfl) rfl
  | permitQuery x test => exact howner (answerPermitQuery test) rfl (fun _ => rfl) (fun t => .of_same rfl) rfl
  | resume x => exact howner answerResume rfl (fun _ => rfl) (fun t => .of_same (answerResume_line t)) rfl
  | _ => cases h

/-- Whether a row is one for a frame heard depends on the station state and the receive filter alone. -/
theorem heardFrom_congr {s t : State} (hs : t.cl.station = s.cl.station) (hf : t.li.filter = s.li.filter) (c : Instr) :
    t.heardFrom c = s.heardFrom c := by
  have hraw : ∀ a f, t.deliversRaw a f = s.deliversRaw a f := fun a f => by
    unfold State.deliversRaw State.commandsDelivered
    rw [hs]
  have haddr : ∀ h, t.addressed h = s.addressed h := fun h => by
    unfold State.addressed
    rw [hf]
  cases c with
  | frameTakenUndelivered rx =>
    cases rx with
    | own => rfl
    | heard a f => exact congrArg (fun b => if b = true then none else some a) (hraw a f)
  | commandNotAddressed h =>
    exact congrArg (fun b => if (b || decide (h.dest = broadcast)) = true then none else some h.source) (haddr h)
  | replyTaken rx | entryTaken rx | speedTaken rx | demandTaken rx | stateTaken rx | joinTaken rx | alarmTaken rx
  | stopTaken rx => cases rx <;> rfl
  | _ => rfl

/-! ### MUTE (R7) -/

theorem takeHeard_of_counting {s : State} {source : Addr} (ha : s.cl.address ≠ some source) (hm : s.li.line = .mute)
    (hg : s.li.good + 1 ≠ 32) : s.takeHeard source = { s with li.ack := true, li.good := s.li.good + 1 } := by
  have hm' : s.slotDriven.li.line = .mute ∧ s.slotDriven.cl.address ≠ some source := ⟨hm, ha⟩
  rw [takeHeard_of_other ha, State.countGood, if_pos hm']
  exact if_neg hg

/-- The end of MUTE that the 32nd frame brings, the readers having acted on it (log 36). -/
def leftMute (s : State) : State := settle 32 (State.leaveMute { s.slotDriven with li.good := 32 })

theorem leftMute_same (s : State) :
    leftMute s = { leftMute s with
      li.line := .active, li.ack := true, li.good := 32, li.discards := 0, li.filter := s.li.filter, li.synced := s.li.synced
      cl.station := s.cl.station, cl.address := s.cl.address, cl.heldPower := s.cl.heldPower, cl.heldPin := s.cl.heldPin } := by
  have hq := enqueueJoin_within ({ s.slotDriven with li.good := 32, li.line := .active, li.discards := 0 } : State)
  have hs := settle_within 32 (State.leaveMute { s.slotDriven with li.good := 32 })
  unfold leftMute
  rw [ByReaders] at hs
  rw [ByQueue] at hq
  generalize settle 32 (State.leaveMute { s.slotDriven with li.good := 32 }) = t at hs ⊢
  rw [State.leaveMute] at hs
  generalize State.enqueueJoin _ = u at hq hs
  rw [hs, hq]
  rfl

theorem receiving_leftMute (s : State) : (leftMute s).receiving = s.receiving := by
  have h := leftMute_same s
  generalize leftMute s = t at h ⊢
  rw [h]
  rfl

/-- A further frame from that source changes nothing of what the end of MUTE has left, when it is taken. -/
theorem takeHeard_leftMute {s : State} {source : Addr} (ha : s.cl.address ≠ some source) :
    (leftMute s).takeHeard source = leftMute s := by
  have h := leftMute_same s
  generalize leftMute s = t at h ⊢
  rw [takeHeard_of_active (by rw [h]) (by rw [h]; exact ha), State.acked]
  rw [h]
  rfl

theorem heardFrom_leftMute (s : State) (c : Instr) : (leftMute s).heardFrom c = s.heardFrom c := by
  have h := leftMute_same s
  generalize leftMute s = t at h ⊢
  exact heardFrom_congr (by rw [h]) (by rw [h]) c

/-- Settles O6: a row acts once its frame has been taken; in MUTE what it does leaves the line interface alone, and what the 32nd
frame leaves takes a further frame with no change. -/
theorem muteIsLeft : Obligations.MuteIsLeft := by
  intro s c source hc hr hm ha
  dsimp only
  obtain ⟨act, hact⟩ := actsOnceTaken_of_heardFrom hc
  have heffect : exec c s = .next (finish s (act (s.takeHeard source))) := exec_of (hact.effect s hr hc) (hact.prior s)
  refine ⟨fun hg => ?_, fun hg => ?_⟩
  · rw [takeHeard_of_counting ha hm hg] at heffect
    exact ⟨⟨_, heffect, hact.held _ hm⟩, fun hn => by rw [heffect, hact.noBlock hn]⟩
  · have hleft : s.takeHeard source = leftMute s := takeHeard_of_leaving ha hm hg
    rw [hleft] at heffect
    refine ⟨⟨_, heffect, ?_⟩, fun hn => by rw [heffect, hact.noBlock hn]; rfl⟩
    have hagain := exec_of (hact.effect (leftMute s) ((receiving_leftMute s).trans hr) ((heardFrom_leftMute s c).trans hc))
      (hact.prior _)
    rw [takeHeard_leftMute ha] at hagain
    exact hagain

/-! ### CONFLICT (R18, R19) -/

/-- Taken in CONFLICT, a RESTART that acts makes the reset due at once: its REPLY is not accepted (R12, R177). -/
theorem restarted_of_conflict {t : State} (ht : t.cl.station = .conflict) (h : CmdHeader) :
    restarted h t =
      if sourceValid h.source && decide (h.dest ≠ broadcast) && t.addressed h && !t.cl.restartPending then
        { t with cl.restartPending := true, cl.restartTimer := some 100, cl.resetDue := true }
      else t := by
  have hna := not_accepts (s := t) (.inr (.inr ht))
  unfold restarted
  cases hp : t.cl.restartPending with
  | false =>
    rw [Bool.not_false, Bool.and_true]
    refine if_congr Iff.rfl ?_ rfl
    rw [acceptRestart_first hp, enqueueFor_of_dropped hna, Bool.or_true]
    rfl
  | true =>
    rw [Bool.not_true, Bool.and_false, if_neg Bool.false_ne_true]
    split
    · rw [acceptRestart_further hp, enqueue_of_dropped hna]
    · rfl

/-- Settles O7: CONFLICT stops every channel and empties the queue, and in CONFLICT no row but RESTART acts. -/
theorem conflictIsDetected : Obligations.ConflictIsDetected := by
  intro s c own hc hr ha hst
  have hchans := stopChans_acts s.slotDriven
  have heq := enterConflict_eq s.slotDriven
  have hown := takeHeard_of_own ha hst
  have hstation : s.slotDriven.enterConflict.cl.station = .conflict := rfl
  generalize s.slotDriven.enterConflict = t at heq hown hstation
  obtain ⟨act, hact⟩ := actsOnceTaken_of_heardFrom hc
  have heffect : exec c s = .next (finish s (act (s.takeHeard own))) := exec_of (hact.effect s hr hc) (hact.prior s)
  rw [hown] at heffect
  have hac : t.ac = s.slotDriven.stopChans.ac := by rw [heq]
  have htotals : t.tt.totals = s.slotDriven.stopChans.tt.totals := by rw [heq]
  refine ⟨t, ?_, ?_, fun k => ⟨?_, ?_⟩, fun hn => ?_, ?_⟩
  · rw [hac, htotals]
    exact heq
  · rw [htotals]
    exact hchans.boards
  · rw [hac]
    exact hchans.self k (mem_allChans k)
  · rw [htotals]
    refine (hchans.pulses k).trans ?_
    simp only [mem_allChans, true_and, steadyOn_iff]
    rfl
  · rw [heffect, hact.conflict t hstation hn]
  · rintro h rfl
    cases hc
    have hrestart : exec (.restart h) s = .next (finish s (restarted h t)) := exec_of (by rw [← hown]; exact if_pos hr)
    have haddr : t.addressed h = s.addressed h := by rw [heq]; rfl
    have hpending : t.cl.restartPending = s.cl.restartPending := by rw [heq]; rfl
    dsimp only
    rw [hrestart, restarted_of_conflict hstation, haddr, hpending]
    exact ⟨fun hacts => by rw [hacts]; rfl, fun hacts => by rw [hacts]; rfl⟩

end Sys2Proof.Proofs.Heard
end

section
/-! PROOF. The passing of time (log 2, log 5, log 27), the end of an event (log 8), and the reset of a RESTART (R176 to R178). -/

namespace Sys2Proof.Proofs.Time

open Sys2Proof Sys2Proof.Machine Sys2Proof.Proofs.ChannelActs Sys2Proof.Proofs.Expiries Sys2Proof.Proofs.Conditions

-- Proofs are elaborated in order: in the joined text the parallel ones would hold more threads at once than the memory limit allows.
set_option Elab.async false

/-! ### The expiries that are due -/

theorem mem_dueOf {c x : Instr} {t : Timer} : c ∈ dueOf t x ↔ t = some 0 ∧ c = x := by
  unfold dueOf isDueNow
  by_cases h : t = some 0
  · simp [h]
  · simp [h]

/-- The phases of which the end is an expiry (R66 to R68, R81). -/
theorem mem_duePhase {c : Instr} {s : State} {k : Chan} :
    c ∈ duePhase s k ↔
      s.ac[k].timer = some 0 ∧
        ((s.ac[k].st = .delay ∧ c = .delayExpiry k) ∨ (s.ac[k].st = .on ∧ c = .onTimeExpiry k) ∨
          (s.ac[k].st = .off ∧ c = .offPhaseExpiry k) ∨ (s.ac[k].st = .halting ∧ c = .haltingExpiry k)) := by
  unfold duePhase
  generalize s.ac[k].timer = t
  cases s.ac[k].st <;> simp only [mem_dueOf, List.not_mem_nil, reduceCtorEq, false_and, true_and, or_false, false_or, and_false]

theorem mem_duePhases {c : Instr} {s : State} : c ∈ allChans.flatMap (duePhase s) ↔ ∃ k : Chan, c ∈ duePhase s k := by
  simp only [List.mem_flatMap, mem_allChans, true_and]

theorem mem_duePeriod {c : Instr} {s : State} :
    c ∈ (if s.periodOver then [Instr.controlPeriodExpiry] else []) ↔
      s.periodsRun = true ∧ (∃ i : LoopIx, 100 ≤ s.hl.loops[i].pos) ∧ c = .controlPeriodExpiry := by
  have hover : s.periodOver = true ↔ s.periodsRun = true ∧ ∃ i : LoopIx, 100 ≤ s.hl.loops[i].pos := by
    rw [Fin.exists_fin_two, State.periodOver, Bool.and_eq_true, Bool.or_eq_true, decide_eq_true_eq, decide_eq_true_eq]
  rw [← and_assoc, ← hover]
  by_cases h : s.periodOver = true
  · rw [if_pos h, List.mem_singleton, h, eq_self_iff_true, true_and]
  · rw [if_neg h]
    exact iff_of_false List.not_mem_nil fun hc => h hc.1

theorem mem_dueAges {c : Instr} {table : List DemandEntry} :
    c ∈ ((table.filter fun e => decide (e.age = 0)).map fun e => Instr.entryAgeExpiry e.station e.loop) ↔
      ∃ e ∈ table, e.age = 0 ∧ c = .entryAgeExpiry e.station e.loop := by
  simp only [List.mem_map, List.mem_filter, decide_eq_true_eq, and_assoc, @eq_comm _ c]

theorem mem_dueSilences {c : Instr} {peers : List PeerEntry} :
    c ∈ ((peers.filter fun e => isDueNow e.silence).map fun e => Instr.silenceTimerExpiry e.addr) ↔
      ∃ e ∈ peers, e.silence = some 0 ∧ c = .silenceTimerExpiry e.addr := by
  simp only [List.mem_map, List.mem_filter, isDueNow, decide_eq_true_eq, and_assoc, @eq_comm _ c]

/-! ### A step while no command waits -/

theorem pick_nil (free : Nat) : pick [] free = none := rfl

/-- Of the expiries that are due one is taken (log 5). -/
theorem pick_mem {due : List Instr} (h : due ≠ []) (free : Nat) : ∃ c ∈ due, pick due free = some c := by
  have hlen : Config.dueOrder free % due.length < due.length := Nat.mod_lt _ (List.length_pos_of_ne_nil h)
  match due, h, hlen with
  | [c], _, _ => exact ⟨c, List.mem_singleton_self c, rfl⟩
  | c :: d :: rest, _, hlen => exact ⟨_, List.getElem_mem hlen, List.getElem?_eq_getElem hlen⟩

theorem step_of_idle {s : State} (h : s.pending = []) : step s = .next (idle s) := by
  unfold step
  rw [h]

theorem idle_of_none {s : State} (h : dueList s = []) : idle s = s.tick := by
  unfold idle
  rw [h, pick_nil]

theorem idle_of_due {s : State} {c : Instr} (h : pick (dueList s) s.free = some c) :
    idle s = { s with pending := [c], free := s.free + 2, now := s.now.expires } := by
  unfold idle
  rw [h]

/-! ### The end of an event -/

theorem finish_of_still {s t : State} (h : readable s = readable t) :
    finish s t = (if t.cl.resetDue then t.restart else t).momentEnds := by
  unfold finish
  rw [if_pos h]

theorem finish_of_change {s t : State} (h : readable s ≠ readable t) :
    finish s t = (if (settle 32 t).cl.resetDue then (settle 32 t).restart else settle 32 t).momentEnds := by
  unfold finish
  rw [if_neg h]

/-- The reset that follows where it is due. -/
theorem restart_if_due (u : State) :
    (u.cl.resetDue = false → (if u.cl.resetDue then u.restart else u).momentEnds = { u with now.moment := u.now.moment + 1 }) ∧
    (u.cl.resetDue = true →
      (if u.cl.resetDue then u.restart else u).momentEnds = { u.restart with now.moment := u.restart.now.moment + 1 }) :=
  ⟨fun h => by rw [h]; rfl, fun h => by rw [h]; rfl⟩

theorem settle_of_changed_round {s : State} (h : readable s.round ≠ readable s) (n : Nat) :
    settle (n + 1) s = settle n s.round := by
  rw [settle, if_pos h]

theorem settle_of_changed_stop {s : State} (h : readable s.round = readable s)
    (hstop : readable s.round.stopFollows ≠ readable s.round) (n : Nat) :
    settle (n + 1) s = settle n s.round.stopFollows := by
  rw [settle, if_neg (not_not_intro h), if_pos hstop]

theorem settle_of_rest {s : State} (h : readable s.round = readable s)
    (hstop : readable s.round.stopFollows = readable s.round) (n : Nat) : settle (n + 1) s = s.round.stopFollows := by
  rw [settle, if_neg (not_not_intro h), if_neg (not_not_intro hstop)]

/-! ### The reset of a RESTART -/

/-- The state in which the LOADING after a RESTART begins: every block reset, the straps as they then stand (log 7). -/
def reborn (s : State) : State := { s.blockReset with pins.straps := Config.freeStraps s.free, free := s.free + 1 }

theorem restart_eq (s : State) : s.restart = (reborn s).beginLoading := rfl

theorem restart_of_valid {s : State} (h0 : Config.freeStraps s.free ≠ 0) (h31 : Config.freeStraps s.free ≠ 31) :
    s.restart =
      { reborn s with
        cl.address := some (Config.freeStraps s.free), cl.readTimer := some 100, cl.busTimer := some 10 } :=
  (restart_eq s).trans (beginLoading_of_valid (s := reborn s) h0 h31)

theorem restart_of_invalid {s : State} (h : Config.freeStraps s.free = 0 ∨ Config.freeStraps s.free = 31) :
    s.restart =
      { reborn s with cl.station := .unconfigured, cl.fault := .addressBad, mb.alarm := .asserted } :=
  (restart_eq s).trans (beginLoading_of_invalid (s := reborn s) h rfl)

/-! ### Wave running -/

theorem waveRuns_of_none {s : State} (h : s.cl.image.level.wave = none) : s.waveRuns = false := by
  unfold State.waveRuns
  rw [h]

theorem waveRuns_of_some {s : State} {k : Chan} (h : s.cl.image.level.wave = some k) :
    s.waveRuns = decide (s.ac[k].st = .delay ∨ s.ac[k].st = .on ∨ s.ac[k].st = .off ∨ s.ac[k].st = .halting) := by
  unfold State.waveRuns
  rw [h]
  exact running_eq _

theorem waveFollows_of_idle {s : State} (h : s.cl.image.level.inUse = false ∨ s.active = false) : s.waveFollows = s := by
  refine if_neg ?_
  rintro ⟨hu, ha, -⟩
  obtain h | h := h
  · exact absurd (hu.symm.trans h) (by decide)
  · exact absurd (ha.symm.trans h) (by decide)

theorem waveFollows_of_same {s : State} (h : s.lu.wave = s.waveRuns) : s.waveFollows = s :=
  if_neg fun hc => hc.2.2 h

theorem waveFollows_of_change {s : State} (hu : s.cl.image.level.inUse = true) (ha : s.active = true)
    (h : s.lu.wave ≠ s.waveRuns) :
    s.waveFollows = { s with lu.wave := s.waveRuns, lu.settleTimer := some (100 * s.cl.image.level.settle) } :=
  if_pos ⟨hu, ha, h⟩

/-- Settles O2: by what each part of the model's clock and of the end of an event does. -/
theorem timePassesAndEventsEnd : Obligations.TimePassesAndEventsEnd := by
  refine ⟨fun s hp => ⟨fun hd => ?_, fun hd => ?_⟩, fun s => rfl, fun s c => ?_, fun s t => ?_, fun s => ?_, fun s => ?_, fun s => ?_⟩
  · rw [step_of_idle hp, idle_of_none hd]
  · obtain ⟨c, hc, hpick⟩ := pick_mem hd s.free
    refine ⟨c, hc, ?_⟩
    rw [step_of_idle hp, idle_of_due hpick]
    rfl
  · simp only [dueList, dueLoader, dueTracker, dueHeat, dueUnits, dueMonitor, List.mem_append, mem_dueOf, mem_duePhases,
      mem_duePhase, mem_duePeriod, mem_dueAges, mem_dueSilences, or_assoc]
  · have hstill := restart_if_due t
    have hsettled := restart_if_due (settle 32 t)
    exact ⟨fun hr hd => (finish_of_still hr).trans (hstill.1 hd), fun hr hd => (finish_of_still hr).trans (hstill.2 hd),
      fun hr hd => (finish_of_change hr).trans (hsettled.1 hd), fun hr hd => (finish_of_change hr).trans (hsettled.2 hd)⟩
  · exact ⟨restart_of_valid, restart_of_invalid⟩
  · exact ⟨rfl, rfl, rfl, fun n => ⟨fun h => settle_of_changed_round h n, fun h hs => settle_of_changed_stop h hs n,
      fun h hs => settle_of_rest h hs n, settle_within n s⟩⟩
  · refine ⟨waveFollows_of_idle, fun hw hr => waveFollows_of_same (hr.trans (waveRuns_of_none hw).symm), fun k hu ha hw => ?_⟩
    dsimp only
    rw [← waveRuns_of_some hw]
    exact ⟨waveFollows_of_same, waveFollows_of_change hu ha⟩

end Sys2Proof.Proofs.Time
end

section
/-! PROOF. A frame that is sent is read back (R1, R2). -/

namespace Sys2Proof.Proofs.ReadBack

open Sys2Proof Sys2Proof.Machine

-- Proofs are elaborated in order: in the joined text the parallel ones would hold more threads at once than the memory limit allows.
set_option Elab.async false

/-! ### Run-limit bits -/

/-- A receiver that counts the runs as the sender does removes what the sender has inserted (log 13). -/
theorem removeRuns_limitRuns (bits : List Bool) (last : Bool) (run : Nat) (h : run < 5) :
    removeRuns last run (limitRuns last run bits) = some bits := by
  induction bits generalizing last run with
  | nil => rfl
  | cons b bs ih =>
    have hread : ∀ rest, removeRuns last run (b :: rest) =
        (removeRuns b (if b = last then run + 1 else 1) rest).map (b :: ·) := fun rest => by
      rw [removeRuns, if_neg (Nat.ne_of_lt h)]
    have hrun : (if b = last then run + 1 else 1) ≤ 5 := by split <;> omega
    unfold limitRuns
    dsimp only
    generalize (if b = last then run + 1 else 1) = run' at hread hrun ⊢
    split
    · rename_i h5
      have hdrop : removeRuns b 5 ((!b) :: limitRuns (!b) 1 bs) = removeRuns (!b) 1 (limitRuns (!b) 1 bs) := by
        rw [removeRuns, if_pos rfl, if_neg (by cases b <;> decide)]
      rw [hread, h5.1, hdrop, ih _ _ (by decide)]
      rfl
    · rename_i hno
      rw [hread]
      by_cases h5 : run' = 5
      · have hend : bs = [] := not_not.1 fun hne => hno ⟨h5, hne⟩
        rw [hend]
        rfl
      · rw [ih _ _ (Nat.lt_of_le_of_ne hrun h5)]
        rfl

/-! ### Fields -/

theorem bitsOf_length {w : Nat} (v : BitVec w) : (bitsOf v).length = w := by
  rw [bitsOf, List.length_map, List.length_reverse, List.length_range]

theorem numberOf_append (bits : List Bool) (b : Bool) : numberOf (bits ++ [b]) = 2 * numberOf bits + b.toNat := by
  rw [numberOf, List.foldl_append]
  rfl

/-- The lowest bits of a number, most significant first, spell it. -/
theorem numberOf_testBits (w n : Nat) : numberOf ((List.range w).reverse.map n.testBit) = n % 2 ^ w := by
  induction w generalizing n with
  | zero => rw [Nat.pow_zero, Nat.mod_one]; rfl
  | succ w ih =>
    have hbits : (List.range (w + 1)).reverse.map n.testBit =
        (List.range w).reverse.map (n / 2).testBit ++ [n.testBit 0] := by
      rw [List.range_succ_eq_map, List.reverse_cons, List.map_append, ← List.map_reverse, List.map_map]
      refine congrArg (· ++ [n.testBit 0]) (List.map_congr_left fun i _ => ?_)
      exact Nat.testBit_succ n i
    have hlow : (n.testBit 0).toNat = n % 2 := by
      rw [Nat.testBit_zero]
      obtain h | h := Nat.mod_two_eq_zero_or_one n <;> rw [h] <;> rfl
    rw [hbits, numberOf_append, ih, hlow, Nat.pow_succ']
    exact (Nat.add_comm _ _).trans Nat.mod_mul.symm

theorem numberOf_bitsOf {w : Nat} (v : BitVec w) : numberOf (bitsOf v) = v.toNat :=
  (numberOf_testBits w v.toNat).trans (Nat.mod_eq_of_lt v.isLt)

theorem bitsOfBytes_cons (b : Byte) (bytes : List Byte) : bitsOfBytes (b :: bytes) = bitsOf b ++ bitsOfBytes bytes := rfl

theorem bitsOfBytes_length (bytes : List Byte) : (bitsOfBytes bytes).length = 8 * bytes.length := by
  induction bytes with
  | nil => rfl
  | cons b bytes ih => rw [bitsOfBytes_cons, List.length_append, bitsOf_length, ih, List.length_cons]; omega

theorem cutBytes_bitsOfBytes (bytes : List Byte) (rest : List Bool) :
    cutBytes bytes.length (bitsOfBytes bytes ++ rest) = bytes := by
  induction bytes with
  | nil => rfl
  | cons b bytes ih =>
    rw [List.length_cons, cutBytes, bitsOfBytes_cons, List.append_assoc, List.take_left' (bitsOf_length b),
      List.drop_left' (bitsOf_length b), ih, numberOf_bitsOf, BitVec.ofNat_toNat, BitVec.setWidth_eq]

/-! ### The frame -/

section Fields

variable (kind : Nat) (source : Addr) (bytes : List Byte) (rest : List Bool)

theorem checkedBits_length : (checkedBits kind source bytes).length = 13 + 8 * bytes.length := by
  simp only [checkedBits, List.length_append, bitsOf_length, bitsOfBytes_length]

theorem checkedBits_kind : (checkedBits kind source bytes ++ rest).take 4 = bitsOf (BitVec.ofNat 4 kind) := by
  simp only [checkedBits, List.append_assoc]
  exact List.take_left' (bitsOf_length _)

theorem checkedBits_drop_kind :
    (checkedBits kind source bytes ++ rest).drop 4 =
      bitsOf source ++ (bitsOf (BitVec.ofNat 4 bytes.length) ++ (bitsOfBytes bytes ++ rest)) := by
  simp only [checkedBits, List.append_assoc]
  exact List.drop_left' (bitsOf_length _)

theorem checkedBits_source : ((checkedBits kind source bytes ++ rest).drop 4).take 5 = bitsOf source := by
  rw [checkedBits_drop_kind]
  exact List.take_left' (bitsOf_length _)

theorem checkedBits_drop_source :
    (checkedBits kind source bytes ++ rest).drop 9 =
      bitsOf (BitVec.ofNat 4 bytes.length) ++ (bitsOfBytes bytes ++ rest) := by
  rw [show 9 = 4 + 5 from rfl, ← List.drop_drop, checkedBits_drop_kind]
  exact List.drop_left' (bitsOf_length _)

theorem checkedBits_size :
    ((checkedBits kind source bytes ++ rest).drop 9).take 4 = bitsOf (BitVec.ofNat 4 bytes.length) := by
  rw [checkedBits_drop_source]
  exact List.take_left' (bitsOf_length _)

theorem checkedBits_payload : (checkedBits kind source bytes ++ rest).drop 13 = bitsOfBytes bytes ++ rest := by
  rw [show 13 = 9 + 4 from rfl, ← List.drop_drop, checkedBits_drop_source]
  exact List.drop_left' (bitsOf_length _)

end Fields

/-- Settles O60: the run-limit bits are removed, and each field is cut from the bits where it was put. -/
theorem sentFrameIsReadBack : Obligations.SentFrameIsReadBack := by
  intro kind source bytes hkind hlen
  have hread : removeRuns true 0 (sentLevels kind source bytes) =
      some (false :: (checkedBits kind source bytes ++ bitsOf (crc16 (checkedBits kind source bytes)))) :=
    removeRuns_limitRuns _ _ _ (by decide)
  have hlength := checkedBits_length kind source bytes
  have hsize : numberOf (bitsOf (BitVec.ofNat 4 bytes.length)) = bytes.length := by
    rw [numberOf_bitsOf, BitVec.toNat_ofNat]
    exact Nat.mod_eq_of_lt (by omega)
  have hcode : numberOf (bitsOf (BitVec.ofNat 4 kind)) = kind := by
    rw [numberOf_bitsOf, BitVec.toNat_ofNat]
    exact Nat.mod_eq_of_lt (by omega)
  unfold receive
  rw [hread]
  dsimp only
  rw [checkedBits_size, hsize, List.take_left' hlength, List.drop_left' hlength, checkedBits_kind, hcode, checkedBits_source,
    numberOf_bitsOf, checkedBits_payload, cutBytes_bitsOfBytes]
  refine if_pos ⟨hlen, ?_, rfl⟩
  rw [List.length_append, hlength, bitsOf_length]
  omega

end Sys2Proof.Proofs.ReadBack
end

section
/-! PROOF. The configuration image: where its items stand, what its block tests ask, and the order of its checks (R180, R181,
R190). -/

namespace Sys2Proof.Proofs.ImageCheck

open Sys2Proof Sys2Proof.Machine Sys2Proof.Proofs.ChannelActs

-- Proofs are elaborated in order: in the joined text the parallel ones would hold more threads at once than the memory limit allows.
set_option Elab.async false

/-! ### Fields of a block are fields of the block area -/

section Fields

variable {blocks : List Byte} {start size i : Nat}

theorem getD_blockAt (h : i < size) : (blockAt blocks start size).getD i 0 = blocks.getD (start + i) 0 := by
  rw [List.getD_eq_getElem?_getD, List.getD_eq_getElem?_getD, blockAt, List.getElem?_take_of_lt h, List.getElem?_drop]

theorem u8_blockAt (h : i < size) : u8 (blockAt blocks start size) i = u8 blocks (start + i) :=
  congrArg BitVec.toNat (getD_blockAt h)

theorem u16_blockAt (h : i + 1 < size) : u16 (blockAt blocks start size) i = u16 blocks (start + i) := by
  unfold u16
  rw [u8_blockAt h, u8_blockAt (Nat.lt_of_succ_lt h)]
  rfl

theorem u24_blockAt (h : i + 2 < size) : u24 (blockAt blocks start size) i = u24 blocks (start + i) := by
  unfold u24
  rw [u8_blockAt (by omega), u16_blockAt h]
  rfl

theorem s16_blockAt (h : i + 1 < size) : s16 (blockAt blocks start size) i = s16 blocks (start + i) := by
  unfold s16
  rw [u16_blockAt h]

theorem bitAt_blockAt (h : i < size) (n : Nat) : bitAt (blockAt blocks start size) i n = bitAt blocks (start + i) n :=
  congrArg (BitVec.getLsbD · n) (getD_blockAt h)

theorem selectionAt_blockAt (h : i + 1 < size) :
    selectionAt (blockAt blocks start size) i = selectionAt blocks (start + i) := by
  unfold selectionAt
  rw [u8_blockAt h, bitAt_blockAt (Nat.lt_of_succ_lt h)]
  rfl

theorem selectorAt_blockAt (h : i + 1 < size) : selectorAt (blockAt blocks start size) i = selectorAt blocks (start + i) := by
  unfold selectorAt
  rw [selectionAt_blockAt h, bitAt_blockAt (Nat.lt_of_succ_lt h)]

theorem goutAt_blockAt (h : i < size) : goutAt (blockAt blocks start size) i = goutAt blocks (start + i) := by
  unfold goutAt
  rw [u8_blockAt h, bitAt_blockAt h]

/-- The code of a selection, by its place in the block area. -/
theorem selectionOk_blockAt (h : i + 1 < size) {n : Nat} (hn : start + i = n) :
    selectionOk (blockAt blocks start size) i = true ↔ sigOfCode (u8 blocks (n + 1)) ≠ none := by
  unfold selectionOk
  rw [u8_blockAt h, ← Nat.add_assoc, hn]
  exact Option.isSome_iff_ne_none

end Fields

/-! ### The blocks of an image -/

section Blocks

variable (blocks : List Byte)

theorem chans_imageOf (k : Chan) : (imageOf blocks).chans[k] = chanOf (chanBlock blocks k) := by fin_cases k <;> rfl
theorem loops_imageOf (i : LoopIx) : (imageOf blocks).loops[i] = loopOf (loopBlock blocks i) := by fin_cases i <;> rfl
theorem points_imageOf (i : Ix8) : (imageOf blocks).points[i] = pointOf (pointBlock blocks i) := by fin_cases i <;> rfl
theorem cells_imageOf (i : Ix8) : (imageOf blocks).cells[i] = cellOf (cellBlock blocks i) := by fin_cases i <;> rfl
theorem slots_imageOf (i : Ix8) : (imageOf blocks).slots[i] = slotOf (slotBlock blocks i) := by fin_cases i <;> rfl

theorem blockTests_length : (blockTests blocks).length = 34 := rfl

theorem blockTests_station : (blockTests blocks)[0]? = some (stationOk (blockAt blocks 0 20)) := rfl

theorem blockTests_chan (k : Chan) :
    (blockTests blocks)[1 + k.val]? = some (chanOk (imageOf blocks) (chanBlock blocks k) k) := by fin_cases k <;> rfl

theorem blockTests_loop (i : LoopIx) :
    (blockTests blocks)[5 + i.val]? = some (loopOk (imageOf blocks) (loopBlock blocks i) i) := by fin_cases i <;> rfl

theorem blockTests_level : (blockTests blocks)[7]? = some (levelOk (imageOf blocks) (blockAt blocks 150 11)) := rfl

theorem blockTests_extraction : (blockTests blocks)[8]? = some (extractionOk (blockAt blocks 161 30)) := rfl

theorem blockTests_point (i : Ix8) : (blockTests blocks)[9 + i.val]? = some (pointOk (pointBlock blocks i)) := by
  fin_cases i <;> rfl

theorem blockTests_cell (i : Ix8) : (blockTests blocks)[17 + i.val]? = some (cellOk (cellBlock blocks i) i) := by
  fin_cases i <;> rfl

theorem blockTests_stop : (blockTests blocks)[25]? = some (stopOk (blockAt blocks 319 8)) := rfl

theorem blockTests_slot (i : Ix8) : (blockTests blocks)[26 + i.val]? = some (slotOk (slotBlock blocks i)) := by
  fin_cases i <;> rfl

end Blocks

/-! ### The tests as conditions on the items -/

theorem within_iff (lo hi n : Nat) : within lo hi n = true ↔ lo ≤ n ∧ n ≤ hi := decide_eq_true_iff

theorem withinInt_iff (lo hi n : Int) : withinInt lo hi n = true ↔ lo ≤ n ∧ n ≤ hi := decide_eq_true_iff

theorem not_or_iff (a b : Bool) : (!a || b) = true ↔ (a = true → b = true) := by cases a <;> simp

theorem not_both_iff (P Q : Prop) [Decidable P] [Decidable Q] : (!(decide P && decide Q)) = true ↔ ¬(P ∧ Q) := by
  rw [← Bool.decide_and, Bool.not_eq_true', decide_eq_false_iff_not]

/-- A test that is a condition. -/
theorem test_eq {l : List Bool} {n : Nat} {ok : Bool} {P : Prop} [Decidable P] (h : l[n]? = some ok) (hok : ok = true ↔ P) :
    l[n]? = some (decide P) := by
  rw [h, Bool.eq_iff_iff.2 (hok.trans decide_eq_true_iff.symm)]

theorem u16_le (b : List Byte) (i : Nat) : u16 b i ≤ 65535 := by
  have h := (b.getD i 0).isLt
  have h' := (b.getD (i + 1) 0).isLt
  unfold u16 u8
  omega

theorem stationOk_iff (b : List Byte) :
    stationOk b = true ↔
      1 ≤ (stationOf b).encoderScale ∧ (stationOf b).encoderScale ≤ 1000 ∧ (stationOf b).sensorPosition ≤ 8388607 ∧
        5 ≤ (stationOf b).captureWindow ∧ (stationOf b).captureWindow ≤ 200 ∧ (stationOf b).forgetPosition ≤ 7738606 ∧
        1 ≤ (stationOf b).budget ∧ (stationOf b).safeGrant ≤ 32767 ∧ u8 b 18 % 16 ≤ 8 ∧ u8 b 19 % 16 ≤ 8 ∧
        2 * (stationOf b).safeGrant ≤ (stationOf b).budget := by
  have hbudget : (stationOf b).budget ≤ 65535 := u16_le b 10
  unfold stationOk
  simp only [Bool.and_eq_true, within_iff, Nat.zero_le, true_and, decide_eq_true_eq, and_assoc, hbudget, maxPosition]

/-- A channel is the only level-owned one so far (R181). -/
theorem first_owned_iff (img : Image) (k : Chan) :
    (!(allChans.any fun j => decide (j < k) && (img.chans[j]).levelOwned)) = true ↔
      ∀ j : Chan, j < k → (img.chans[j]).levelOwned = false := by
  simp only [Bool.not_eq_true', List.any_eq_false, mem_allChans, Bool.and_eq_true, decide_eq_true_eq, not_and,
    Bool.not_eq_true, forall_const]

theorem chanOk_iff (img : Image) (b : List Byte) (k : Chan) :
    chanOk img b k = true ↔
      u8 b 0 ≤ 3 ∧ selectionOk b 9 = true ∧ (chanOf b).nozzle ≤ 8388607 ∧ (chanOf b).leadMargin ≤ 500000 ∧
        (chanOf b).trailMargin ≤ 500000 ∧ ¬((chanOf b).onBase = 125 ∧ (chanOf b).periodBase = 1) ∧
        ((chanOf b).onTime = 0 ∨ (chanOf b).period = 0 ∨
          (chanOf b).onTime * (chanOf b).onBase < (chanOf b).period * (chanOf b).periodBase) ∧
        ((chanOf b).mode = .off ∨ (chanOf b).nozzle + (chanOf b).trailMargin ≤ img.station.forgetPosition) ∧
        ((chanOf b).levelOwned = true → (chanOf b).mode = .free ∧ ∀ j : Chan, j < k → (img.chans[j]).levelOwned = false) := by
  unfold chanOk
  simp only [Bool.and_eq_true, within_iff, Nat.zero_le, true_and, not_or_iff, not_both_iff, first_owned_iff, maxPosition]
  simp only [Bool.or_eq_true, decide_eq_true_eq, and_assoc, or_assoc, imp_and]
  rfl

theorem loopOk_iff (img : Image) (b : List Byte) (i : LoopIx) :
    loopOk img b i = true ↔
      (loopOf b).spMin ≤ 5000 ∧ (loopOf b).spMax ≤ 5000 ∧ (loopOf b).fBoard ≤ 500 ∧ (loopOf b).deadband ≤ 100 ∧
        1 ≤ (loopOf b).rated ∧ (loopOf b).rated ≤ 2000 ∧ -100 ≤ (loopOf b).tcOffset ∧ (loopOf b).tcOffset ≤ 100 ∧
        selectionOk b 16 = true ∧ (loopOf b).zoneStart ≤ 8388607 ∧ (loopOf b).zoneEnd ≤ 8388607 ∧
        (loopOf b).lookahead ≤ 30 ∧ (loopOf b).spMin ≤ (loopOf b).spMax ∧ (loopOf b).spMin ≤ (loopOf b).defaultSp ∧
        (loopOf b).defaultSp ≤ (loopOf b).spMax ∧
        ((loopOf b).inUse = true → (loopOf b).zoneEnd ≤ img.station.forgetPosition) ∧
        ((loopOf b).ganged = true → i = 1 ∧ (img.loops[(0 : LoopIx)]).inUse = true ∧ (loopOf b).inUse = true) := by
  unfold loopOk
  simp only [Bool.and_eq_true, within_iff, Nat.zero_le, true_and, withinInt_iff, decide_eq_true_eq, and_assoc, not_or_iff, maxPosition]
  rfl

theorem levelOk_iff (img : Image) (b : List Byte) :
    levelOk img b = true ↔
      u8 b 0 ≤ 1 ∧ u8 b 1 ≤ 4 ∧ (levelOf b).waveOffset ≤ 300 ∧ 5 ≤ (levelOf b).settle ∧ (levelOf b).settle ≤ 100 ∧
        -500 ≤ (levelOf b).feedOn ∧ (levelOf b).feedOn ≤ 500 ∧ -500 ≤ (levelOf b).feedOff ∧ (levelOf b).feedOff ≤ 500 ∧
        5 ≤ (levelOf b).maxFeed ∧ (levelOf b).maxFeed ≤ 600 ∧ (levelOf b).feedOn < (levelOf b).feedOff ∧
        ((levelOf b).wave = none ∨ (levelOf b).wave ≠ ownedChanOf img) := by
  unfold levelOk
  simp only [Bool.and_eq_true, within_iff, Nat.zero_le, true_and, withinInt_iff, decide_eq_true_eq, and_assoc, Bool.or_eq_true,
    Option.isNone_iff_eq_none]

theorem extractionOk_iff (b : List Byte) :
    extractionOk b = true ↔
      u8 b 0 ≤ 1 ∧ (extractionOf b).base ≤ 1000 ∧ (extractionOf b).perBoard ≤ 1000 ∧ (extractionOf b).boost ≤ 1000 ∧
        (extractionOf b).watchedStation ≤ 30 ∧ u8 b 8 ≤ 3 ∧ 1 ≤ (extractionOf b).rampStep ∧
        (extractionOf b).rampStep ≤ 1000 ∧ 1 ≤ (extractionOf b).activeThreshold ∧
        (extractionOf b).activeThreshold ≤ 1000 ∧ (extractionOf b).minAirflow ≤ 2000 ∧
        (extractionOf b).clogThreshold ≤ 2000 ∧ (extractionOf b).span1.first ≤ 8388607 ∧
        (extractionOf b).span1.last ≤ 8388607 ∧ (extractionOf b).span2.first ≤ 8388607 ∧
        (extractionOf b).span2.last ≤ 8388607 := by
  unfold extractionOk
  simp only [Bool.and_eq_true, within_iff, Nat.zero_le, true_and, and_assoc, maxPosition]

theorem pointOk_iff (b : List Byte) :
    pointOk b = true ↔
      u8 b 1 ≤ 6 ∧ selectionOk b 2 = true ∧ -500 ≤ (pointOf b).threshold ∧ (pointOf b).threshold ≤ 5000 ∧
        (pointOf b).hysteresis ≤ 1000 ∧ u8 b 8 ≤ 3 := by
  unfold pointOk
  simp only [Bool.and_eq_true, within_iff, Nat.zero_le, true_and, withinInt_iff, and_assoc]

theorem cellInputOk_iff (i : Ix8) (s : Selection) : cellInputOk i s = true ↔ ∀ j : Ix8, i ≤ j → s.sig ≠ .cell j := by
  unfold cellInputOk
  split
  · rename_i j hs
    rw [hs, decide_eq_true_eq]
    exact ⟨fun h x hx he => absurd (Sig.cell.inj he ▸ h) (not_lt.2 hx), fun h => not_le.1 fun hx => h j hx rfl⟩
  · rename_i hs
    exact iff_of_true rfl fun j _ => hs j

theorem cellOk_iff (b : List Byte) (i : Ix8) :
    cellOk b i = true ↔
      selectionOk b 1 = true ∧ selectionOk b 3 = true ∧ selectionOk b 5 = true ∧
        ∀ j : Ix8, i ≤ j → (cellOf b).a.sig ≠ .cell j ∧ (cellOf b).b.sig ≠ .cell j ∧ (cellOf b).c.sig ≠ .cell j := by
  unfold cellOk
  simp only [Bool.and_eq_true, cellInputOk_iff, and_assoc, imp_and, forall_and]

theorem stopOk_iff (b : List Byte) :
    stopOk b = true ↔ selectionOk b 0 = true ∧ selectionOk b 2 = true ∧ selectionOk b 4 = true := by
  unfold stopOk
  simp only [Bool.and_eq_true, and_assoc]

theorem slotOk_iff (b : List Byte) : slotOk b = true ↔ 1 ≤ u8 b 1 ∧ u8 b 1 ≤ 30 := within_iff 1 30 _

theorem allChans_eq : allChans = List.finRange 4 := rfl

/-- The level-owned channel is the first one so marked. -/
theorem ownedChanOf_iff (img : Image) (k : Chan) :
    ownedChanOf img = some k ↔ (img.chans[k]).levelOwned = true ∧ ∀ j : Chan, j < k → (img.chans[j]).levelOwned = false := by
  unfold ownedChanOf
  rw [allChans_eq, List.find?_eq_some_iff_getElem]
  simp only [List.getElem_finRange, Bool.not_eq_true']
  refine and_congr_right fun _ => ⟨?_, fun h => ⟨k.val, by rw [List.length_finRange]; exact k.isLt, rfl, fun j hj => ?_⟩⟩
  · rintro ⟨i, hi, rfl, hbefore⟩ j hj
    exact hbefore j.val hj
  · exact h ⟨j, hj.trans k.isLt⟩ hj

/-! ### Codes -/

theorem modeOf_eq (n : Nat) : modeOf n = if n = 0 then .off else if n = 1 then .free else if n = 2 then .board else .input := by
  match n with
  | 0 => rfl
  | 1 => rfl
  | 2 => rfl
  | n + 3 => rfl

theorem analogOf_eq (n : Nat) :
    analogOf n = ([Analog.gain0, .gain1, .pv0, .pv1, .level, .airflow, .fanOutput][n]?).getD .fanOutput := by
  match n with
  | 0 | 1 | 2 | 3 | 4 | 5 | 6 => rfl
  | n + 7 => rfl

theorem qualificationOf_eq (n : Nat) : qualificationOf n = ([3, 6, 12, 24][n]?).getD 24 := by
  match n with
  | 0 | 1 | 2 | 3 => rfl
  | n + 4 => rfl

theorem cellFnOf_eq (b1 b2 : Bool) :
    cellFnOf b1 b2 = if b2 then (if b1 then .latch else .xor) else if b1 then .or else .and := by
  cases b1 <;> cases b2 <;> rfl

/-- A code that is not listed (R190). -/
theorem sigOfCode_unlisted {n : Nat} (h : 101 ≤ n) : sigOfCode n = none := by
  unfold sigOfCode
  repeat rw [if_neg (by omega)]

/-! ### The items by their places -/

section Items

variable (blocks : List Byte)

theorem station_eq :
    (imageOf blocks).station =
      { entrySource := bitAt blocks 0 0, speedSource := bitAt blocks 0 1, sensor := bitAt blocks 0 2
        encoderScale := u16 blocks 1, sensorPosition := u24 blocks 3, captureWindow := u8 blocks 6
        forgetPosition := u24 blocks 7, budget := u16 blocks 10, safeGrant := u16 blocks 12
        expected := BitVec.ofNat 32 (65536 * u16 blocks 14 + u16 blocks 16)
        gout0 := goutAt blocks 18, gout1 := goutAt blocks 19 } := by
  show stationOf (blockAt blocks 0 20) = _
  simp [stationOf, u8_blockAt, u16_blockAt, u24_blockAt, bitAt_blockAt, goutAt_blockAt]

theorem chan_eq (k : Chan) :
    (imageOf blocks).chans[k] =
      { mode := modeOf (u8 blocks (20 + 20 * k)), delay := u8 blocks (20 + 20 * k + 1), onTime := u8 blocks (20 + 20 * k + 2)
        period := u8 blocks (20 + 20 * k + 3), onBase := baseOf (bitAt blocks (20 + 20 * k + 4) 0)
        periodBase := baseOf (bitAt blocks (20 + 20 * k + 4) 1), countLimit := u16 blocks (20 + 20 * k + 5)
        rearmCount := bitAt blocks (20 + 20 * k + 7) 0, rearmSingle := bitAt blocks (20 + 20 * k + 7) 1
        rearmWindow := bitAt blocks (20 + 20 * k + 7) 2, rearmInputEnd := bitAt blocks (20 + 20 * k + 7) 3
        completePulse := bitAt blocks (20 + 20 * k + 8) 0, inverted := bitAt blocks (20 + 20 * k + 8) 1
        levelOwned := bitAt blocks (20 + 20 * k + 8) 2, permit := selectionAt blocks (20 + 20 * k + 9)
        nozzle := u24 blocks (20 + 20 * k + 11), leadMargin := u24 blocks (20 + 20 * k + 14)
        trailMargin := u24 blocks (20 + 20 * k + 17) } := by
  rw [chans_imageOf, chanBlock]
  simp [chanOf, u8_blockAt, u16_blockAt, u24_blockAt, bitAt_blockAt, selectionAt_blockAt]

theorem loop_eq (i : LoopIx) :
    (imageOf blocks).loops[i] =
      { inUse := bitAt blocks (100 + 25 * i) 0, ganged := bitAt blocks (100 + 25 * i) 1
        autoEnable := bitAt blocks (100 + 25 * i) 2, cls := (bitAt blocks (100 + 25 * i) 3).toNat
        spMin := u16 blocks (100 + 25 * i + 1), spMax := u16 blocks (100 + 25 * i + 3)
        defaultSp := u16 blocks (100 + 25 * i + 5), kp := u8 blocks (100 + 25 * i + 7), ki := u8 blocks (100 + 25 * i + 8)
        fBoard := u16 blocks (100 + 25 * i + 9), deadband := u8 blocks (100 + 25 * i + 11)
        rated := u16 blocks (100 + 25 * i + 12), tcOffset := s16 blocks (100 + 25 * i + 14)
        permit := selectionAt blocks (100 + 25 * i + 16), zoneStart := u24 blocks (100 + 25 * i + 18)
        zoneEnd := u24 blocks (100 + 25 * i + 21), lookahead := u8 blocks (100 + 25 * i + 24) } := by
  rw [loops_imageOf, loopBlock]
  simp [loopOf, u8_blockAt, u16_blockAt, u24_blockAt, s16_blockAt, bitAt_blockAt, selectionAt_blockAt]

theorem level_eq :
    (imageOf blocks).level =
      { inUse := decide (u8 blocks 150 = 1)
        wave := if u8 blocks 151 = 0 then none else some (Fin.ofNat 4 (u8 blocks 151 - 1))
        waveOffset := u16 blocks 152, settle := u8 blocks 154, feedOn := s16 blocks 155, feedOff := s16 blocks 157
        maxFeed := u16 blocks 159 } := by
  show levelOf (blockAt blocks 150 11) = _
  simp [levelOf, u8_blockAt, u16_blockAt, s16_blockAt]

theorem extraction_eq :
    (imageOf blocks).extraction =
      { inUse := decide (u8 blocks 161 = 1), base := u16 blocks 162, perBoard := u16 blocks 164, boost := u16 blocks 166
        watchedStation := u8 blocks 168, watchedChan := Fin.ofNat 4 (u8 blocks 169), rampStep := u16 blocks 170
        activeThreshold := u16 blocks 172, minAirflow := u16 blocks 174, clogThreshold := u16 blocks 176
        span1 := ⟨bitAt blocks 178 0, u24 blocks 179, u24 blocks 182⟩
        span2 := ⟨bitAt blocks 178 1, u24 blocks 185, u24 blocks 188⟩ } := by
  show extractionOf (blockAt blocks 161 30) = _
  simp [extractionOf, u8_blockAt, u16_blockAt, u24_blockAt, bitAt_blockAt]

theorem point_eq (i : Ix8) :
    (imageOf blocks).points[i] =
      { inUse := bitAt blocks (191 + 9 * i) 0, isSignal := bitAt blocks (191 + 9 * i) 1
        below := bitAt blocks (191 + 9 * i) 2, onSource := bitAt blocks (191 + 9 * i) 3
        trip := bitAt blocks (191 + 9 * i) 4, analog := analogOf (u8 blocks (191 + 9 * i + 1))
        signal := selectionAt blocks (191 + 9 * i + 2), threshold := s16 blocks (191 + 9 * i + 4)
        hysteresis := u16 blocks (191 + 9 * i + 6), qualification := qualificationOf (u8 blocks (191 + 9 * i + 8)) } := by
  rw [points_imageOf, pointBlock]
  simp [pointOf, u8_blockAt, u16_blockAt, s16_blockAt, bitAt_blockAt, selectionAt_blockAt]

theorem cell_eq (i : Ix8) :
    (imageOf blocks).cells[i] =
      { inUse := bitAt blocks (263 + 7 * i) 0, fn := cellFnOf (bitAt blocks (263 + 7 * i) 1) (bitAt blocks (263 + 7 * i) 2)
        inverted := bitAt blocks (263 + 7 * i) 3, a := selectionAt blocks (263 + 7 * i + 1)
        b := selectionAt blocks (263 + 7 * i + 3), c := selectionAt blocks (263 + 7 * i + 5) } := by
  rw [cells_imageOf, cellBlock]
  simp [cellOf, bitAt_blockAt, selectionAt_blockAt]

theorem stop_eq :
    (imageOf blocks).stop =
      { s0 := ⟨bitAt blocks 319 6, selectionAt blocks 319⟩, s1 := ⟨bitAt blocks 321 6, selectionAt blocks 321⟩
        s2 := ⟨bitAt blocks 323 6, selectionAt blocks 323⟩, triggerTime := u8 blocks 325, stopWidth := u8 blocks 326 } := by
  show stopOf (blockAt blocks 319 8) = _
  simp only [stopOf, selectorAt_blockAt, u8_blockAt, Nat.reduceAdd, Nat.reduceLT]
  rfl

theorem slot_eq (i : Ix8) :
    (imageOf blocks).slots[i] =
      { inUse := bitAt blocks (327 + 2 * i) 7, station := u8 blocks (327 + 2 * i + 1)
        point := Fin.ofNat 8 (u8 blocks (327 + 2 * i)) } := by
  rw [slots_imageOf, slotBlock]
  simp [slotOf, u8_blockAt, bitAt_blockAt]

end Items

/-! ### The order of the checks -/

/-- The two bytes of a word, most significant first, spell it. -/
theorem word_toNat (v : BitVec 16) : 256 * (v.extractLsb' 8 8).toNat + (v.extractLsb' 0 8).toNat = v.toNat := by
  rw [BitVec.extractLsb'_toNat, BitVec.extractLsb'_toNat, Nat.shiftRight_eq_div_pow, Nat.shiftRight_eq_div_pow]
  have := v.isLt
  omega

section Image

variable {tag length crc : BitVec 16} {blocks rest : List Byte}

/-- The header of an image (R190). -/
def headerBytes (tag length : BitVec 16) : List Byte :=
  [tag.extractLsb' 8 8, tag.extractLsb' 0 8, length.extractLsb' 8 8, length.extractLsb' 0 8]

/-- An image as it is read: header, blocks, check, and what follows it. -/
def imageBytes (tag length crc : BitVec 16) (blocks rest : List Byte) : List Byte :=
  headerBytes tag length ++ blocks ++ [crc.extractLsb' 8 8, crc.extractLsb' 0 8] ++ rest

theorem imageBytes_tag : u16 (imageBytes tag length crc blocks rest) 0 = tag.toNat := word_toNat tag

theorem imageBytes_blocksLength : u16 (imageBytes tag length crc blocks rest) 2 = length.toNat := word_toNat length

theorem imageBytes_length (h : blocks.length = 343) :
    (imageBytes tag length crc blocks rest).length = 349 + rest.length := by
  simp only [imageBytes, headerBytes, List.length_append, List.length_cons, List.length_nil, h]

theorem imageBytes_checked (h : blocks.length = 343) :
    (imageBytes tag length crc blocks rest).take 347 = headerBytes tag length ++ blocks := by
  rw [imageBytes, List.append_assoc]
  exact List.take_left' (by simp only [headerBytes, List.length_append, List.length_cons, List.length_nil, h])

theorem imageBytes_crc (h : blocks.length = 343) : u16 (imageBytes tag length crc blocks rest) 347 = crc.toNat := by
  have hlen : (headerBytes tag length ++ blocks).length = 347 := by
    simp only [headerBytes, List.length_append, List.length_cons, List.length_nil, h]
  have hread : ∀ n, (imageBytes tag length crc blocks rest).getD (347 + n) 0 =
      ([crc.extractLsb' 8 8, crc.extractLsb' 0 8] ++ rest).getD n 0 := fun n => by
    rw [imageBytes, List.append_assoc, List.getD_append_right _ _ _ _ (by omega), hlen, Nat.add_sub_cancel_left]
  have h0 := hread 0
  have h1 := hread 1
  unfold u16 u8
  rw [h0, h1]
  exact word_toNat crc

theorem imageBytes_blocks (h : blocks.length = 343) : ((imageBytes tag length crc blocks rest).drop 4).take 343 = blocks := by
  rw [imageBytes, List.append_assoc, List.append_assoc, List.drop_left' (show (headerBytes tag length).length = 4 from rfl)]
  exact List.take_left' h

/-- A wrong header (R180). -/
theorem checkImage_of_header (hlen : blocks.length = 343) (h : tag ≠ 0xc330#16 ∨ length ≠ 343#16) :
    checkImage (imageBytes tag length crc blocks rest) = .bad := by
  have hlong := imageBytes_length (tag := tag) (length := length) (crc := crc) (rest := rest) hlen
  unfold checkImage
  rw [if_neg (by omega), imageBytes_tag, imageBytes_blocksLength]
  refine if_pos (h.imp (fun ht he => ht ?_) fun hl he => hl ?_)
  · exact BitVec.eq_of_toNat_eq he
  · exact BitVec.eq_of_toNat_eq he

/-- With the right header, the check and then the blocks decide (R180). -/
theorem checkImage_of_length (hlen : blocks.length = 343) (htag : tag = 0xc330#16) (hlength : length = 343#16) :
    checkImage (imageBytes tag length crc blocks rest) =
      if crc ≠ crc16 (bitsOfBytes (headerBytes tag length ++ blocks)) then .bad
      else
        ((blockTests blocks).findIdx? fun ok => !ok).elim (.accepted (imageOf blocks)) .invalid := by
  have hlong := imageBytes_length (tag := tag) (length := length) (crc := crc) (rest := rest) hlen
  have hcrc : (crc16 (bitsOfBytes (headerBytes tag length ++ blocks))).toNat ≠ crc.toNat ↔
      crc ≠ crc16 (bitsOfBytes (headerBytes tag length ++ blocks)) :=
    (not_congr BitVec.toNat_inj).trans ne_comm
  unfold checkImage
  rw [if_neg (by omega), imageBytes_tag, imageBytes_blocksLength,
    if_neg (by rw [htag, hlength]; decide), if_neg (by rw [blocksLength]; omega)]
  simp only [blocksLength, Nat.reduceAdd, imageBytes_checked hlen, imageBytes_crc hlen, imageBytes_blocks hlen, hcrc]
  refine if_congr Iff.rfl rfl ?_
  cases (blockTests blocks).findIdx? fun ok => !ok <;> rfl

end Image

end Sys2Proof.Proofs.ImageCheck
end

section
/-! PROOF. O51, from the places of the items, the block tests and the order of the checks. -/

namespace Sys2Proof.Proofs.ImageCheck

open Sys2Proof Sys2Proof.Machine Sys2Proof.Proofs.ChannelActs

-- Proofs are elaborated in order: in the joined text the parallel ones would hold more threads at once than the memory limit allows.
set_option Elab.async false

/-- The first test that fails. -/
theorem findIdx_failing {l : List Bool} {i : Nat} (hi : l[i]? = some false) (h : ∀ j < i, l[j]? = some true) :
    l.findIdx? (fun ok => !ok) = some i := by
  obtain ⟨hlt, hfails⟩ := List.getElem?_eq_some_iff.1 hi
  refine List.findIdx?_eq_some_iff_getElem.2 ⟨hlt, by rw [hfails]; rfl, fun j hj => ?_⟩
  obtain ⟨hj', hpasses⟩ := List.getElem?_eq_some_iff.1 (h j hj)
  rw [hpasses]
  decide

theorem findIdx_passing {l : List Bool} (h : ∀ ok ∈ l, ok = true) : l.findIdx? (fun ok => !ok) = none :=
  List.findIdx?_eq_none_iff.2 fun ok hok => by rw [h ok hok]; rfl

/-- Settles O51: the checks come in order, each block test is a condition on the items, and each item has its place. -/
theorem imageIsChecked : Obligations.ImageIsChecked := by
  refine ⟨fun tag length crc blocks rest hlen => ?_, fun blocks => ?_, fun blocks => ?_, rfl, rfl, by decide, by decide,
    by decide, by decide, by decide, by decide, by decide, fun n => sigOfCode_unlisted⟩
  · refine ⟨checkImage_of_header hlen, fun htag hlength => ?_⟩
    have hcheck := checkImage_of_length (crc := crc) (rest := rest) hlen htag hlength
    refine ⟨fun hne => hcheck.trans (if_pos hne), fun heq => ?_⟩
    have hblocks := hcheck.trans (if_neg (not_not_intro heq))
    refine ⟨fun i hi hbefore => hblocks.trans ?_, fun hall => hblocks.trans ?_⟩
    · rw [findIdx_failing hi hbefore]
      rfl
    · rw [findIdx_passing hall]
      rfl
  · intro byte img st lv ex listed
    refine ⟨blockTests_length blocks, test_eq (blockTests_station blocks) ((stationOk_iff _).trans ?_), fun k => ?_, fun i => ?_,
      test_eq (blockTests_level blocks) ((levelOk_iff _ _).trans ?_),
      test_eq (blockTests_extraction blocks) ((extractionOk_iff _).trans ?_), fun i => ?_, fun i => ?_,
      test_eq (blockTests_stop blocks) ((stopOk_iff _).trans ?_),
      fun i => test_eq (blockTests_slot blocks i) ((slotOk_iff _).trans ?_), ownedChanOf_iff _⟩
    · rw [u8_blockAt (by decide), u8_blockAt (by decide)]
      rfl
    · intro c
      have hc : chanOf (chanBlock blocks k) = c := (chans_imageOf blocks k).symm
      refine test_eq (blockTests_chan blocks k) ((chanOk_iff _ _ _).trans ?_)
      rw [hc, chanBlock, u8_blockAt (by decide), selectionOk_blockAt (by decide) (n := 29 + 20 * k.val) (by omega)]
      rfl
    · intro c
      have hc : loopOf (loopBlock blocks i) = c := (loops_imageOf blocks i).symm
      refine test_eq (blockTests_loop blocks i) ((loopOk_iff _ _ _).trans ?_)
      rw [hc, loopBlock, selectionOk_blockAt (by decide) (n := 116 + 25 * i.val) (by omega)]
      rfl
    · rw [u8_blockAt (by decide), u8_blockAt (by decide)]
      rfl
    · rw [u8_blockAt (by decide), u8_blockAt (by decide)]
      rfl
    · intro c
      have hc : pointOf (pointBlock blocks i) = c := (points_imageOf blocks i).symm
      refine test_eq (blockTests_point blocks i) ((pointOk_iff _).trans ?_)
      rw [hc, pointBlock, u8_blockAt (by decide), u8_blockAt (by decide),
        selectionOk_blockAt (by decide) (n := 193 + 9 * i.val) (by omega), Nat.add_right_comm, Nat.add_right_comm 191 _ 8]
      rfl
    · intro c
      have hc : cellOf (cellBlock blocks i) = c := (cells_imageOf blocks i).symm
      refine test_eq (blockTests_cell blocks i) ((cellOk_iff _ _).trans ?_)
      rw [hc, cellBlock, selectionOk_blockAt (by decide) (n := 264 + 7 * i.val) (by omega),
        selectionOk_blockAt (by decide) (n := 266 + 7 * i.val) (by omega),
        selectionOk_blockAt (by decide) (n := 268 + 7 * i.val) (by omega)]
      rfl
    · rw [selectionOk_blockAt (by decide) (n := 319) rfl, selectionOk_blockAt (by decide) (n := 321) rfl,
        selectionOk_blockAt (by decide) (n := 323) rfl]
      rfl
    · rw [slotBlock, u8_blockAt (by decide), Nat.add_right_comm]
      rfl
  · refine ⟨station_eq blocks, fun k => ?_, loop_eq blocks, level_eq blocks, extraction_eq blocks, fun i => ?_, fun i => ?_,
      stop_eq blocks, slot_eq blocks⟩
    · refine (chan_eq blocks k).trans ?_
      rw [modeOf_eq]
      rfl
    · refine (point_eq blocks i).trans ?_
      rw [analogOf_eq, qualificationOf_eq]
      rfl
    · refine (cell_eq blocks i).trans ?_
      rw [cellFnOf_eq]
      rfl

end Sys2Proof.Proofs.ImageCheck
end
